-- ==== Sys2Proof/Config.lean ====
section
/-! DEFINITION. What the part fixes. The spec leaves no value open, so there is no free value here. -/

namespace Sys2Proof.Config

/-- Two output frame events are at least this many ticks of 1 µs apart (R138, R141). -/
abbrev guardTicks : Nat := 2000

/-- Composition completes within this many ticks of its output frame event (R4). -/
abbrev compositionTicks : Nat := 400

/-- A new LOWREQ level must hold for 2 ms to be taken (R113). -/
abbrev lowreqTicks : Nat := 2000

/-- Ticks of one step of the ms clock (R136, R145). -/
abbrev ticksPerMs : Nat := 1000

/-- Frames the upstream queue holds (R161). -/
abbrev queueDepth : Nat := 4

/-- Slots of the Track Table (R40). -/
abbrev trackSlots : Nat := 24

/-- Positions of a side's pattern, target frame and segment records (section 1.1, R80). -/
abbrev positions : Nat := 128

/-- The highest level (00_scope.md section 6). -/
abbrev maxLevel : Nat := 1023

/-- Commands a MANAGE frame may carry (R123, R128). -/
abbrev manageCommands : Nat := 8

/-- Failed frames in a row at which a chip becomes UNREACHABLE (R96). -/
abbrev failedLimit : Nat := 4

/-- An UNREACHABLE chip is probed on the frames numbered by a multiple of this (R97). -/
abbrev probeInterval : Nat := 16

/-- Bytes of the frame assembly buffer: header, payload and CRC (R122). -/
abbrev bufferBytes : Nat := 1028

/-- Longest payload of a link frame (R122, R125). -/
abbrev maxPayload : Nat := 1023

end Sys2Proof.Config
end

