-- ==== Sys2Proof/Word.lean ====
section
/-! DEFINITION. The words of the BF-2640 and the pair of its two sides. -/

namespace Sys2Proof

/-- One byte of a link frame (R125). -/
abbrev Byte := BitVec 8

/-- One word of a table (chapter Tables and the Bank, section 10.1), or a two-byte field of a link frame (R125). -/
abbrev Word := BitVec 16

/-- A value of the ms clock: 32 bits, wrapping (R145). -/
abbrev MsTime := BitVec 32

/-- The two sides: each lamp, lamp bus port and set of per-side state belongs to one (00_scope.md section 5). -/
inductive Side where
  | left
  | right
  deriving DecidableEq, Repr

/-- One value for each side. -/
structure Sided (α : Type) where
  left : α
  right : α
  deriving DecidableEq, Repr

/-- The value of one side. -/
def Sided.get {α : Type} (x : Sided α) : Side → α
  | .left => x.left
  | .right => x.right

/-- Replace the value of one side; the other side keeps its own. -/
def Sided.set {α : Type} (x : Sided α) (d : Side) (v : α) : Sided α :=
  match d with
  | .left => { left := v, right := x.right }
  | .right => { left := x.left, right := v }

/-- The pair whose value on each side is computed from the side. -/
def Sided.of {α : Type} (f : Side → α) : Sided α :=
  { left := f .left, right := f .right }

/-- The same value on both sides. -/
def Sided.both {α : Type} (v : α) : Sided α := { left := v, right := v }

/-- A line's level. -/
inductive LineLevel where
  | low
  | high
  deriving DecidableEq, Repr

/-- The other level. -/
def LineLevel.opposite : LineLevel → LineLevel
  | .low => .high
  | .high => .low

end Sys2Proof
end

