-- ==== Sys2Proof/Syntax.lean ====
section
/-! DEFINITION. The commands of the BF-2640: one constructor of `Instr` for each row of spec/opcode_table.json,
with the operands the link frames, MANAGE records and driver chip answers carry, at their widths on the wire. -/

namespace Sys2Proof

/-- The 9-byte payload of a MOTION frame (R126), field by field. -/
structure MotionPayload where
  /-- offset 0: speed, unsigned, 0.1 km/h -/
  speed : Word
  /-- offset 2: yaw rate, signed, 0.01°/s -/
  yaw : Word
  /-- offset 4: road-wheel angle, signed, centidegrees -/
  wheel : Word
  /-- offset 6: bit 0 speed valid, 1 yaw valid, 2 wheel valid, 3 adaptive source; bits 4 to 7 ignored -/
  flags : Byte
  /-- offset 7: requested function code -/
  function : Byte
  /-- offset 8: bits 7 to 4 low index, bits 3 to 0 adaptive index -/
  indices : Byte
  deriving DecidableEq, Repr

/-- One 18-byte report record of a SCENE frame (R127). -/
structure SceneReport where
  objectId : Byte
  classCode : Byte
  /-- bit 0 top, bit 1 rate, bit 2 distance present; other bits ignored -/
  presence : Byte
  left : Word
  right : Word
  bottom : Word
  top : Word
  rate : Word
  distance : Word
  /-- bits 3 to 0; bits 7 to 4 ignored -/
  confidence : Byte
  captureAge : Byte
  /-- the last byte, ignored -/
  spare : Byte
  deriving DecidableEq, Repr

/-- The payload of a SCENE frame (R127): its 2-byte header and its report records. -/
structure ScenePayload where
  sceneId : Byte
  /-- bit 7 END marker; bits 3 to 0 report count; bits 6 to 4 ignored -/
  control : Byte
  reports : List SceneReport
  deriving DecidableEq, Repr

/-- The 257-byte payload of a PATTERN frame (R126). -/
structure PatternPayload where
  /-- 0 LEFT, 1 RIGHT -/
  side : Byte
  /-- 128 levels, position 0 first -/
  levels : List Word
  deriving DecidableEq, Repr

/-- One command record of a MANAGE frame (R128), with its place in the frame: the frame's tag, and whether the
record is the frame's last. The row of the table gives the command code. -/
structure ManageRecord where
  tag : Byte
  last : Bool
  /-- the parameter bytes; their number is the record's parameter length -/
  params : List Byte
  deriving DecidableEq, Repr

/-- How a downstream frame fails (R122, R123). -/
inductive FrameFault where
  /-- a START arrives while a frame is being assembled: the partial frame is discarded and a new frame begins -/
  | startInFrame
  /-- a data byte arrives with 1028 bytes in the buffer -/
  | overflow
  /-- the END check of R123 fails for the data bytes between START and END -/
  | failedCheck (data : List Byte)
  deriving DecidableEq, Repr

/-- The direction of an edge on FSYNC (R136, R141). -/
inductive SyncEdge where
  | rising
  | falling
  deriving DecidableEq, Repr

/-- An ACK to a SEGMENT WRITE with a good CRC (R94). -/
structure SegmentAck where
  side : Side
  /-- the attempt it answers has been judged already (R95) -/
  late : Bool
  /-- physical address the answer carries -/
  address : Nat
  thermalWarn : Bool
  thermalStop : Bool
  rxCrc : Bool
  faults : BitVec 32
  deriving DecidableEq, Repr

/-- An ACK to a REGISTER READ or REGISTER WRITE with a good CRC (R94). -/
structure RegisterAck where
  side : Side
  late : Bool
  address : Nat
  value : Word
  deriving DecidableEq, Repr

/-- Why an answer fails the attempt in progress (R95). -/
inductive BadAnswerKind where
  | nakAnswer
  | badCrc
  | otherAddress
  deriving DecidableEq, Repr

/-- A NAK, or a bad or misaddressed answer (R95). -/
structure BadAnswer where
  side : Side
  late : Bool
  kind : BadAnswerKind
  deriving DecidableEq, Repr

/-- The commands: one constructor for each row of spec/opcode_table.json, in the table's order. -/
inductive Instr where
  /-- COLD_RESET (R137) -/
  | coldReset
  /-- LOWREQ_EDGE (R113): the line changes to the level given (active high) -/
  | lowreqEdge (active : Bool)
  /-- LOWREQ_LEVEL_CHANGE (R113) -/
  | lowreqLevelChange
  /-- LINE_SQUELCH (R134) -/
  | lineSquelch
  /-- LINK_FRAME_ERROR (R123) -/
  | linkFrameError (cause : FrameFault)
  /-- MOTION_FRAME (R124) -/
  | motionFrame (m : MotionPayload)
  /-- SCENE_FRAME (R51) -/
  | sceneFrame (p : ScenePayload)
  /-- PATTERN_FRAME (R8) -/
  | patternFrame (p : PatternPayload)
  /-- TABLE_WRITE (R148) -/
  | tableWrite (r : ManageRecord)
  /-- TABLE_READ (R148) -/
  | tableRead (r : ManageRecord)
  /-- COMMIT (R153) -/
  | commit (r : ManageRecord)
  /-- DISCARD (R153) -/
  | discard (r : ManageRecord)
  /-- STATUS_NOW (R162) -/
  | statusNow (r : ManageRecord)
  /-- FLAG_CLEAR (R163) -/
  | flagClear (r : ManageRecord)
  /-- SCENE_CLEAR (R60) -/
  | sceneClear (r : ManageRecord)
  /-- FRAME_ALIGN (R140) -/
  | frameAlign (r : ManageRecord)
  /-- TEST_ENTER (R116) -/
  | testEnter (r : ManageRecord)
  /-- TEST_EXIT (R117) -/
  | testExit (r : ManageRecord)
  /-- PORT_HALT (R104) -/
  | portHalt (r : ManageRecord)
  /-- PORT_STOP (R105) -/
  | portStop (r : ManageRecord)
  /-- PORT_RESUME (R106) -/
  | portResume (r : ManageRecord)
  /-- DRIVER_PASS (R101) -/
  | driverPass (r : ManageRecord)
  /-- WARM_RESET (R164) -/
  | warmReset (r : ManageRecord)
  /-- UNKNOWN_COMMAND (R159): a record whose code names no command -/
  | unknownCommand (code : Byte) (r : ManageRecord)
  /-- UPSTREAM_FRAME_SENT (R161) -/
  | upstreamFrameSent
  /-- QUEUE_CLAIM_ENTRY (R161) -/
  | queueClaimEntry
  /-- WARM_RESET_TAKES_EFFECT (R164) -/
  | warmResetTakesEffect
  /-- FRAME_TIMER_EXPIRY (R138) -/
  | frameTimerExpiry
  /-- FSYNC_EDGE (R141) -/
  | fsyncEdge (edge : SyncEdge)
  /-- STROBE_END (R144) -/
  | strobeEnd
  /-- MS_CLOCK_TICK (R145) -/
  | msClockTick
  /-- LAPSE_EXPIRY (R133) -/
  | lapseExpiry
  /-- LOSS_EXPIRY (R133) -/
  | lossExpiry
  /-- COMPOSITION_COMPLETE (R18) -/
  | compositionComplete
  /-- SEGMENT_WRITE_ACK (R96) -/
  | segmentWriteAck (a : SegmentAck)
  /-- REGISTER_ACK (R102) -/
  | registerAck (a : RegisterAck)
  /-- NAK (R95) -/
  | nak (a : BadAnswer)
  /-- REPLY_TIMEOUT (R95), of the attempt in progress on one side's bus -/
  | replyTimeout (side : Side)
  /-- START_SYMBOL (R122) -/
  | startSymbol
  /-- RESET_ENDS (R137) -/
  | resetEnds
  deriving DecidableEq, Repr

end Sys2Proof
end

