-- ==== Sys2Proof/Decode.lean ====
section
/-! DEFINITION. From the Beam Link's bytes to commands and back: byte order, the CRC of R125, the frame layouts of
R125 to R128, the Link Receiver's check of R123, and `decodeTableWord`. -/

namespace Sys2Proof

/-! ### Byte order and CRC -/

/-- A two-byte field, most significant byte first (section 8.2). -/
def wordOf (hi lo : Byte) : Word := hi ++ lo

/-- The two bytes of a word, most significant byte first (section 8.2). -/
def wordBytes (w : Word) : List Byte := [w.extractLsb' 8 8, w.extractLsb' 0 8]

/-- The bytes of a sequence of words, in order. -/
def wordsBytes : List Word → List Byte
  | [] => []
  | w :: ws => wordBytes w ++ wordsBytes ws

/-- Read a whole number of words. -/
def parseWords : List Byte → Option (List Word)
  | [] => some []
  | [_] => none
  | hi :: lo :: rest => (parseWords rest).map (fun ws => wordOf hi lo :: ws)

/-- One bit of the CRC register: generator x^16 + x^12 + x^5 + 1 (R125). -/
def crcShift (c : Word) : Word :=
  if c.msb then (c <<< 1) ^^^ 0x1021#16 else c <<< 1

/-- One byte into the CRC register, most significant bit first (R125). -/
def crcByte (c : Word) (b : Byte) : Word :=
  crcShift (crcShift (crcShift (crcShift (crcShift (crcShift (crcShift (crcShift (c ^^^ (b ++ 0#8)))))))))

/-- The CRC of R125: register preset to all ones, result not inverted. -/
def crc16 (data : List Byte) : Word := data.foldl crcByte 0xFFFF#16

/-! ### Frames (R125) -/

/-- The class codes of R125. -/
def classMotion : Byte := 0x11#8
def classScene : Byte := 0x12#8
def classPattern : Byte := 0x13#8
def classManage : Byte := 0x14#8
def classStatus : Byte := 0x21#8
def classReply : Byte := 0x22#8
def classPassResult : Byte := 0x23#8

/-- Header and payload of a link frame (R125). -/
def frameBody (cls : Byte) (payload : List Byte) : List Byte :=
  cls :: (wordBytes (BitVec.ofNat 16 payload.length) ++ payload)

/-- A whole link frame: header, payload and CRC (R125). -/
def frameBytes (cls : Byte) (payload : List Byte) : List Byte :=
  frameBody cls payload ++ wordBytes (crc16 (frameBody cls payload))

/-! ### Payload layouts (R126, R127, R128) -/

/-- The bytes of a MOTION payload (R126). -/
def motionBytes (m : MotionPayload) : List Byte :=
  wordBytes m.speed ++ wordBytes m.yaw ++ wordBytes m.wheel ++ [m.flags, m.function, m.indices]

/-- Read a MOTION payload: 9 bytes (R123, R126). -/
def parseMotion : List Byte → Option MotionPayload
  | [a, b, c, d, e, f, g, h, i] =>
    some { speed := wordOf a b, yaw := wordOf c d, wheel := wordOf e f, flags := g, function := h, indices := i }
  | _ => none

/-- The 18 bytes of a report record (R127). -/
def reportBytes (r : SceneReport) : List Byte :=
  [r.objectId, r.classCode, r.presence] ++ wordBytes r.left ++ wordBytes r.right ++ wordBytes r.bottom
    ++ wordBytes r.top ++ wordBytes r.rate ++ wordBytes r.distance ++ [r.confidence, r.captureAge, r.spare]

/-- Read `n` report records that fill the bytes exactly (R123, R127). -/
def parseReports : Nat → List Byte → Option (List SceneReport)
  | 0, [] => some []
  | n + 1, a :: b :: c :: l1 :: l2 :: r1 :: r2 :: b1 :: b2 :: t1 :: t2 :: v1 :: v2 :: d1 :: d2 :: e :: f :: g :: rest =>
    (parseReports n rest).map fun rs =>
      { objectId := a, classCode := b, presence := c, left := wordOf l1 l2, right := wordOf r1 r2,
        bottom := wordOf b1 b2, top := wordOf t1 t2, rate := wordOf v1 v2, distance := wordOf d1 d2,
        confidence := e, captureAge := f, spare := g } :: rs
  | _, _ => none

/-- The report count in a SCENE header: bits 3 to 0 of its second byte (R127). -/
def ScenePayload.count (p : ScenePayload) : Nat := (p.control &&& 0x0F#8).toNat

/-- The END marker of a SCENE header: bit 7 of its second byte (R127). -/
def ScenePayload.endMark (p : ScenePayload) : Bool := p.control.getLsbD 7

/-- The header counts the records and they are at most 12 (R123). -/
def ScenePayload.framed (p : ScenePayload) : Bool := p.reports.length == p.count && decide (p.count ≤ 12)

/-- The bytes of a SCENE payload (R127). -/
def sceneBytes (p : ScenePayload) : List Byte :=
  p.sceneId :: p.control :: p.reports.flatMap reportBytes

/-- Read a SCENE payload (R123, R127). -/
def parseScene : List Byte → Option ScenePayload
  | i :: c :: rest =>
    if (c &&& 0x0F#8).toNat ≤ 12 then
      (parseReports (c &&& 0x0F#8).toNat rest).map fun rs => { sceneId := i, control := c, reports := rs }
    else none
  | _ => none

/-- The side a side code names: 0 LEFT, 1 RIGHT (R126, R128). -/
def sideOf (code : Byte) : Option Side :=
  if code = 0#8 then some .left else if code = 1#8 then some .right else none

/-- The side code is 0 or 1 and there are 128 levels (R123). -/
def PatternPayload.framed (p : PatternPayload) : Bool :=
  (sideOf p.side).isSome && p.levels.length == Config.positions

/-- The bytes of a PATTERN payload (R126). -/
def patternBytes (p : PatternPayload) : List Byte := p.side :: wordsBytes p.levels

/-- Read a PATTERN payload (R123, R126). -/
def parsePattern : List Byte → Option PatternPayload
  | s :: rest =>
    match parseWords rest with
    | some ws => if (PatternPayload.mk s ws).framed then some { side := s, levels := ws } else none
    | none => none
  | [] => none

/-- One command record of a MANAGE payload (R128): code and parameter bytes. -/
abbrev RawRecord := Byte × List Byte

/-- The bytes of one command record: code, parameter length, parameters (R128). -/
def recordBytes (r : RawRecord) : List Byte := r.1 :: BitVec.ofNat 8 r.2.length :: r.2

/-- Read `n` command records that fill the bytes exactly (R128). -/
def parseRecords : Nat → List Byte → Option (List RawRecord)
  | 0, [] => some []
  | n + 1, c :: l :: rest =>
    if l.toNat ≤ rest.length then
      (parseRecords n (rest.drop l.toNat)).map fun rs => (c, rest.take l.toNat) :: rs
    else none
  | _, _ => none

/-- The bytes of a MANAGE payload: tag, command count, records (R128). -/
def manageBytes (tag : Byte) (records : List RawRecord) : List Byte :=
  tag :: BitVec.ofNat 8 records.length :: records.flatMap recordBytes

/-- Read a MANAGE payload of 1 to 8 records (R123, R128). -/
def parseManage : List Byte → Option (Byte × List RawRecord)
  | t :: n :: rest =>
    if 1 ≤ n.toNat ∧ n.toNat ≤ Config.manageCommands then
      (parseRecords n.toNat rest).map fun rs => (t, rs)
    else none
  | _ => none

/-! ### The Link Receiver's check (R123) and the commands of a frame -/

/-- An accepted downstream frame (R124). -/
inductive DownFrame where
  | motion (m : MotionPayload)
  | scene (p : ScenePayload)
  | pattern (p : PatternPayload)
  | manage (tag : Byte) (records : List RawRecord)
  deriving DecidableEq, Repr

/-- The payload of a downstream frame. -/
def DownFrame.payload : DownFrame → List Byte
  | .motion m => motionBytes m
  | .scene p => sceneBytes p
  | .pattern p => patternBytes p
  | .manage t rs => manageBytes t rs

/-- The class code of a downstream frame (R125). -/
def DownFrame.cls : DownFrame → Byte
  | .motion _ => classMotion
  | .scene _ => classScene
  | .pattern _ => classPattern
  | .manage _ _ => classManage

/-- The data bytes of a downstream frame between START and END (R125). -/
def DownFrame.bytes (f : DownFrame) : List Byte := frameBytes f.cls f.payload

/-- The frame can be sent as it is (R123, R127, R128): counts and lengths fit their fields. -/
def DownFrame.framed : DownFrame → Bool
  | .motion _ => true
  | .scene p => p.framed
  | .pattern p => p.framed
  | .manage t rs =>
    decide (1 ≤ rs.length) && decide (rs.length ≤ Config.manageCommands)
      && rs.all (fun r => decide (r.2.length ≤ 255)) && decide ((manageBytes t rs).length ≤ Config.maxPayload)

/-- Read a payload by its class code (R123). -/
def parsePayload (cls : Byte) (payload : List Byte) : Option DownFrame :=
  if cls = classMotion then (parseMotion payload).map .motion
  else if cls = classScene then (parseScene payload).map .scene
  else if cls = classPattern then (parsePattern payload).map .pattern
  else if cls = classManage then (parseManage payload).map fun x => .manage x.1 x.2
  else none

/-- The check at the END of a frame (R123) over the data bytes between START and END: the frame accepted, or none. -/
def receive (data : List Byte) : Option DownFrame :=
  let body := data.take (data.length - 2)
  match body with
  | cls :: l1 :: l2 :: payload =>
    if data.drop (data.length - 2) = wordBytes (crc16 body)
        ∧ (wordOf l1 l2).toNat ≤ Config.maxPayload ∧ (wordOf l1 l2).toNat = payload.length then
      parsePayload cls payload
    else none
  | _ => none

/-- The command a MANAGE record's code names (R128); any other code is an unknown command (R159). -/
def commandOf (code : Byte) (r : ManageRecord) : Instr :=
  match code.toNat with
  | 0x01 => .tableWrite r
  | 0x02 => .tableRead r
  | 0x03 => .commit r
  | 0x04 => .discard r
  | 0x05 => .statusNow r
  | 0x06 => .flagClear r
  | 0x07 => .sceneClear r
  | 0x08 => .frameAlign r
  | 0x09 => .testEnter r
  | 0x0A => .testExit r
  | 0x0B => .portHalt r
  | 0x0C => .portStop r
  | 0x0D => .portResume r
  | 0x0E => .driverPass r
  | 0x0F => .warmReset r
  | _ => .unknownCommand code r

/-- The commands of a MANAGE frame's records, in order; the last one is marked. -/
def recordCommands (tag : Byte) : List RawRecord → List Instr
  | [] => []
  | [r] => [commandOf r.1 { tag := tag, last := true, params := r.2 }]
  | r :: rs => commandOf r.1 { tag := tag, last := false, params := r.2 } :: recordCommands tag rs

/-- The commands an accepted frame stands for (R124). -/
def DownFrame.commands : DownFrame → List Instr
  | .motion m => [.motionFrame m]
  | .scene p => [.sceneFrame p]
  | .pattern p => [.patternFrame p]
  | .manage t rs => recordCommands t rs

/-- What the Link Receiver makes of the data bytes between a START and the next END (R123, R124). -/
def linkCommands (data : List Byte) : List Instr :=
  match receive data with
  | some f => f.commands
  | none => [.linkFrameError (.failedCheck data)]

/-! ### The table's words -/

/-- The command a word spells by the opcode table's bits. No row of spec/opcode_table.json gives bits, so none. -/
def decodeTableWord (_nbits _w : Nat) : Option Instr := none

end Sys2Proof
end

