-- ==== Sys2Proof/Machine/State.lean ====
section
/-! DEFINITION. The state of the BF-2640 as plain data, block by block (00_scope.md section 4), and the state after
reset. INVENTORY.md, '## State', lists every field with its rule and reset value. -/

namespace Sys2Proof.Machine

open Sys2Proof

/-! ### Link Receiver (section 8.1) -/

/-- The Link Receiver (R122, R123). -/
structure Receiver where
  /-- a frame is being assembled -/
  assembling : Bool
  /-- the frame assembly buffer -/
  buffer : List Byte
  /-- the frame error count, 0..65535, saturating -/
  errorCount : Nat
  deriving DecidableEq, Repr

/-! ### Link Monitor (section 8.3) -/

/-- The link state (R130). -/
inductive LinkState where
  | down
  | settling
  | up
  | lapsed
  deriving DecidableEq, Repr

/-- The Link Monitor (R130). The gap timer is the ms clock less `lastArrival`; it runs outside DOWN. -/
structure LinkMonitor where
  state : LinkState
  /-- the interval estimate E, ms -/
  estimate : Nat
  /-- the stable count -/
  stable : Nat
  /-- the time of the last MOTION arrival -/
  lastArrival : MsTime
  /-- the model's own: the lapse expiry has come in this gap (R133, R135) -/
  lapseTaken : Bool
  /-- the model's own: the loss expiry has come in this gap (R133, R135) -/
  lossTaken : Bool
  deriving DecidableEq, Repr

/-! ### Held motion record (section 2.1) -/

/-- Light functions (00_scope.md section 5). -/
inductive LightFn where
  | off
  | low
  | adaptive
  deriving DecidableEq, Repr

/-- Where the ADAPTIVE base pattern comes from (R24). -/
inductive PatternSource where
  | stored
  | streamed
  deriving DecidableEq, Repr

/-- The held motion record (R24). -/
structure Motion where
  /-- S, 0..2000, 0.1 km/h -/
  speed : Nat
  speedValid : Bool
  /-- ωm, −12000..12000, 0.01°/s -/
  yaw : Int
  yawValid : Bool
  /-- D, −4500..4500, centidegrees -/
  wheel : Int
  wheelValid : Bool
  requested : LightFn
  lowIndex : Nat
  adaptiveIndex : Nat
  source : PatternSource
  deriving DecidableEq, Repr

/-! ### Bend Unit (section 2.2) -/

/-- The Bend Unit (R27). -/
structure BendUnit where
  /-- θL and θR, centidegrees -/
  theta : Sided Int
  /-- the column shifts s16, sixteenths of a column -/
  shift : Sided Int
  /-- BEND_INPUT_LOST -/
  inputLost : Bool
  deriving DecidableEq, Repr

/-! ### Track Table and Scene Assembler (chapter 3) -/

/-- Object classes (R40). -/
inductive ObjClass where
  | oncoming
  | preceding
  | twoWheeler
  | reflector
  deriving DecidableEq, Repr

/-- Track states (section 3.7). -/
inductive TrackState where
  | free
  | tentative
  | confirmed
  | coasting
  deriving DecidableEq, Repr

/-- A track entry (R40). -/
structure Track where
  state : TrackState
  objectId : Nat
  cls : ObjClass
  left : Int
  right : Int
  bottom : Int
  top : Option Int
  rate : Option Int
  distance : Option Nat
  confidence : Nat
  captureAge : Nat
  arrival : MsTime
  hits : Nat
  misses : Nat
  seen : Bool
  deriving DecidableEq, Repr

/-- A FREE entry's values (R40). -/
def Track.freeEntry : Track :=
  { state := .free, objectId := 0, cls := .oncoming, left := 0, right := 0, bottom := 0, top := none, rate := none,
    distance := none, confidence := 0, captureAge := 0, arrival := 0#32, hits := 0, misses := 0, seen := false }

/-- The Track Table, the open-scene record, the last scene time and the crowded hold counter (R40, R50, section 3.5). -/
structure TrackTable where
  /-- 24 entries, slot 0 first -/
  tracks : List Track
  isOpen : Bool
  sceneId : Nat
  reportCount : Nat
  /-- the last scene time; none when no scene has closed -/
  lastScene : Option MsTime
  crowdedHold : Nat
  deriving DecidableEq, Repr

/-- The Track Table and Scene Assembler after a reset (R61). -/
def TrackTable.empty : TrackTable :=
  { tracks := List.replicate Config.trackSlots Track.freeEntry, isOpen := false, sceneId := 0, reportCount := 0,
    lastScene := none, crowdedHold := 0 }

/-! ### Window Builder (section 4.1) -/

/-- A shadow window (R62). -/
structure Window where
  left : Int
  right : Int
  bottom : Int
  top : Int
  residual : Nat
  cls : ObjClass
  deriving DecidableEq, Repr

/-! ### Table Bank (chapter 10) -/

/-- A copy of the tables: the words that differ from their defaults, each under its cell number
256 × table id + word offset, cells strictly rising. -/
abbrev BankCopy := List (Nat × Word)

/-- The last commit outcome (R147). -/
inductive CommitOutcome where
  /-- NONE -/
  | noOutcome
  | applied
  | rejected (table offset : Nat)
  | cancelled
  deriving DecidableEq, Repr

/-- The Table Bank (R147). -/
structure TableBank where
  active : BankCopy
  staged : BankCopy
  commitPending : Bool
  outcome : CommitOutcome
  /-- the commit count, wrapping -/
  commitCount : Word
  deriving DecidableEq, Repr

/-! ### Beam Supervisor (chapter 7) -/

/-- Beam modes (R110). -/
inductive BeamMode where
  | dark
  | fallback
  | normal
  | hold
  | test
  deriving DecidableEq, Repr

/-- Test patterns, in the fixed order of R119. -/
inductive TestPattern where
  | solid
  | checker
  | columnWalk
  | rowWalk
  | stored
  deriving DecidableEq, Repr

/-- A test program (R119). -/
structure TestProgram where
  /-- the enabled set, in the fixed order -/
  enabled : List TestPattern
  storedIndex : Nat
  level : Nat
  scale : Nat
  invert : Bool
  dwellFrames : Nat
  autoAdvance : Bool
  deriving DecidableEq, Repr

/-- The Beam Supervisor (R110, R113, R114, R119). -/
structure Supervisor where
  mode : BeamMode
  testActive : Bool
  /-- the LOWREQ level as last taken -/
  lowreqLevel : Bool
  /-- the level of the LOWREQ line -/
  lowreqLine : Bool
  /-- ticks for which a new level has held, while it is being qualified -/
  lowreqHeld : Option Nat
  /-- SCENE_STALE -/
  sceneStale : Bool
  program : Option TestProgram
  current : Option TestPattern
  walk : Nat
  dwell : Nat
  deriving DecidableEq, Repr

/-! ### Frame Composer (chapter 1) -/

/-- A streamed pattern buffer (R7). -/
structure StreamBuffer where
  levels : List Nat
  age : Nat
  valid : Bool
  deriving DecidableEq, Repr

/-- A streamed pattern buffer after a reset (R7). -/
def StreamBuffer.empty : StreamBuffer :=
  { levels := List.replicate Config.positions 0, age := 255, valid := false }

/-- A side's target frame and shadowed flags (R18, R19). -/
structure TargetFrame where
  levels : List Nat
  shadowed : List Bool
  deriving DecidableEq, Repr

/-- Target values 0 and flags clear, as a reset leaves them (R19). -/
def TargetFrame.dark : TargetFrame :=
  { levels := List.replicate Config.positions 0, shadowed := List.replicate Config.positions false }

/-- The inputs a composition takes at its output frame event (R3). -/
structure CompositionInputs where
  active : BankCopy
  mode : BeamMode
  function : LightFn
  lowIndex : Nat
  adaptiveIndex : Nat
  source : PatternSource
  shift : Sided Int
  windows : Sided (List Window)
  crowded : Nat
  derate : Sided Bool
  streams : Sided StreamBuffer
  /-- the test pattern of the frame, in TEST -/
  test : Sided (List Nat)
  /-- the frame counter as the event left it (R90) -/
  number : Word
  deriving DecidableEq, Repr

/-- The Frame Composer (R3, R6, R7, R19). -/
structure Composer where
  streams : Sided StreamBuffer
  /-- STREAM_STALE -/
  streamStale : Bool
  /-- the composition in progress -/
  inFlight : Option CompositionInputs
  targets : Sided TargetFrame
  deriving DecidableEq, Repr

/-! ### Transition Stage (chapter 5) -/

/-- A segment record (R80). -/
structure SegmentRecord where
  level : Nat
  hold : Nat
  lastFlag : Bool
  deriving DecidableEq, Repr

/-- A segment record after a reset (R80). -/
def SegmentRecord.dark : SegmentRecord := { level := 0, hold := 0, lastFlag := false }

/-! ### Lamp Bus Ports (chapter 6) -/

/-- An output frame (R90). -/
structure OutputFrame where
  side : Side
  levels : List Nat
  number : Word
  deriving DecidableEq, Repr

/-- A transfer item (R97). -/
structure TransferItem where
  /-- the alias, 1..4 -/
  chip : Nat
  address : Nat
  first : Nat
  count : Nat
  /-- marked LAST -/
  last : Bool
  deriving DecidableEq, Repr

/-- The in-flight frame: an output frame, its transfer list and the position reached in it, that is how many items
have been begun (R92). -/
structure Delivery where
  frame : OutputFrame
  items : List TransferItem
  position : Nat
  deriving DecidableEq, Repr

/-- The transaction in progress on a lamp bus (R92, R95): attempts begun, and the reply timeout in µs in force for the
present attempt. -/
inductive Transaction where
  | quiet
  | item (it : TransferItem) (attempts timeout : Nat)
  | pass (address attempts timeout : Nat)
  deriving DecidableEq, Repr

/-- A pass-through request (R101). -/
structure PassRequest where
  /-- the alias, 1..4 -/
  chip : Nat
  /-- WRITE, else READ -/
  write : Bool
  register : Nat
  value : Word
  deriving DecidableEq, Repr

/-- The pass-through slot (R92). -/
inductive PassSlot where
  | empty
  | waiting (r : PassRequest)
  | inProgress (r : PassRequest)
  /-- RESULT HELD: OK with its value, or FAILED -/
  | held (r : PassRequest) (result : Option Word)
  deriving DecidableEq, Repr

/-- Chip states (R93). -/
inductive ChipState where
  | unused
  | online
  | unreachable
  deriving DecidableEq, Repr

/-- A chip record (R93). -/
structure ChipRecord where
  state : ChipState
  address : Option Nat
  failed : Nat
  warn : Bool
  stop : Bool
  rxCrc : Bool
  faults : BitVec 32
  deriving DecidableEq, Repr

/-- A re-initialised record of an alias with the address given, or UNUSED without one (R93, R107). -/
def ChipRecord.fresh (address : Option Nat) : ChipRecord :=
  { state := if address.isSome then .online else .unused, address := address, failed := 0, warn := false,
    stop := false, rxCrc := false, faults := 0#32 }

/-- Port states (R92). -/
inductive PortState where
  | idle
  | sending
  | halting
  | halted
  | stopped
  deriving DecidableEq, Repr

/-- A lamp bus port (R92, R93). -/
structure Port where
  state : PortState
  txn : Transaction
  inFlight : Option Delivery
  pendingFrame : Option OutputFrame
  remainder : List TransferItem
  warningSeen : Bool
  /-- the derate condition of the side -/
  derate : Bool
  pass : PassSlot
  /-- the records of aliases 1 to 4, in order -/
  chips : List ChipRecord
  deriving DecidableEq, Repr

/-- A port at its reset values with the chip records given (R92, R108). -/
def Port.atReset (chips : List ChipRecord) : Port :=
  { state := .idle, txn := .quiet, inFlight := none, pendingFrame := none, remainder := [], warningSeen := false,
    derate := false, pass := .empty, chips := chips }

/-! ### Frame Timebase (chapter 9) -/

/-- The Frame Timebase (R137). -/
structure Timebase where
  /-- the frame timer's count -/
  count : Nat
  /-- the model's own: a tick has found the count at 0 and the expiry has not been taken yet (R138) -/
  expiryDue : Bool
  /-- ticks since the last output frame event -/
  sinceEvent : Nat
  flywheel : Nat
  /-- SYNC_LOST -/
  syncLost : Bool
  strobeActive : Bool
  /-- ticks left of the pulse -/
  strobeLeft : Nat
  /-- the idle level in force -/
  strobeIdle : LineLevel
  /-- FSYNC is driven by the part -/
  fsyncDriven : Bool
  msClock : MsTime
  /-- ticks since the ms clock last advanced -/
  msTicks : Nat
  frameCounter : Word
  deriving DecidableEq, Repr

/-! ### Management Unit and upstream queue (chapter 11) -/

/-- Result codes (R129). -/
inductive ResultCode where
  | ok
  | pending
  | queued
  | badCommand
  | badTable
  | badRange
  | moving
  | linkNotUp
  | notInTest
  | unknownAlias
  | busy
  | wrongSync
  | notRun
  deriving DecidableEq, Repr

/-- A result record of a REPLY (R129). -/
structure CommandResult where
  command : Byte
  code : ResultCode
  data : List Byte
  deriving DecidableEq, Repr

/-- Why a STATUS frame was formed (R162). -/
inductive StatusOrigin where
  | periodic
  | reportNow
  | statusNow
  deriving DecidableEq, Repr

/-- Windows of one side counted by source class (R77). -/
structure WindowCounts where
  oncoming : Nat
  preceding : Nat
  twoWheeler : Nat
  reflector : Nat
  deriving DecidableEq, Repr

/-- The fields of a STATUS frame (R129). -/
structure StatusReport where
  origin : StatusOrigin
  mode : BeamMode
  link : LinkState
  estimate : Nat
  function : LightFn
  theta : Sided Int
  tentative : Nat
  confirmed : Nat
  coasting : Nat
  sceneOpen : Bool
  sceneId : Nat
  reportCount : Nat
  crowdedHold : Nat
  windows : Sided WindowCounts
  portStates : Sided PortState
  chips : Sided (List ChipRecord)
  sticky : Word
  sceneStale : Bool
  streamStale : Bool
  bendInputLost : Bool
  syncLost : Bool
  derate : Sided Bool
  outcome : CommitOutcome
  commitCount : Word
  errorCount : Nat
  frameCounter : Word
  deriving DecidableEq, Repr

/-- A frame of the upstream queue (R125, R129). -/
inductive UpFrame where
  | status (r : StatusReport)
  | reply (tag : Byte) (results : List CommandResult)
  /-- OK with its value, or FAILED -/
  | passResult (side : Side) (chip : Nat) (result : Option Word)
  deriving DecidableEq, Repr

/-- The model's own: the MANAGE frame whose commands are being executed (R158 to R160). -/
structure ManageFrame where
  tag : Byte
  /-- the frame was discarded at its arrival; otherwise a queue slot is reserved for its REPLY -/
  discarded : Bool
  /-- commands of the frame taken so far -/
  taken : Nat
  /-- WARM RESET has been executed in this frame -/
  warmTaken : Bool
  results : List CommandResult
  /-- the bytes of the records taken so far -/
  bytes : List Byte
  deriving DecidableEq, Repr

/-- The Management Unit (R157). -/
structure Management where
  queue : List UpFrame
  /-- the sticky flags, bits as in R129 -/
  sticky : Word
  reportRequest : Bool
  /-- the report-now claim waits -/
  reportClaim : Bool
  /-- the STATUS NOW claim waits -/
  statusClaim : Bool
  warmPending : Bool
  /-- the model's own: the MANAGE frame being executed -/
  manage : Option ManageFrame
  deriving DecidableEq, Repr

/-- The sticky flags (R129, R163). -/
inductive Flag where
  | frameError
  | manageOverrun
  | sceneTruncated
  | sceneCrowded
  | syncMissing
  | syncEarly
  | linkLapsed
  | linkDown
  | commitRejected
  | testEnded
  | driverLost (d : Side)
  | thermalStop (d : Side)
  | frameSuperseded (d : Side)
  deriving DecidableEq, Repr

/-! ### The whole state -/

/-- The state of the part, and the queue of commands that wait. -/
structure State where
  /-- the RESET line is asserted -/
  inReset : Bool
  rx : Receiver
  link : LinkMonitor
  motion : Motion
  bend : BendUnit
  table : TrackTable
  windows : Sided (List Window)
  composer : Composer
  segments : Sided (List SegmentRecord)
  ports : Sided Port
  sup : Supervisor
  time : Timebase
  bank : TableBank
  mgmt : Management
  /-- the commands that wait, first in, first out -/
  pending : List Instr
  deriving DecidableEq, Repr

/-- Faults. The spec gives the part none: every command has an effect, is answered with a result code, is discarded
with a flag, or changes nothing. No meaning raises a fault (safe: there is none to raise). -/
inductive Fault where
  deriving DecidableEq, Repr

/-- Refusals. -/
inductive Refusal where
  /-- Raised by an arm of `exec` for a command that has no meaning yet; no arm is left so (safe). -/
  | notModelled (mnemonic : String)
  deriving DecidableEq, Repr

/-- The machine right after a cold reset has ended with the LOWREQ line inactive (R22, R24, R27, R40, R61, R62, R7,
R19, R80, R92, R93, R108, R110, R114, R119, R122, R123, R130, R137, R147, R157). -/
def State.reset : State :=
  { inReset := false
    rx := { assembling := false, buffer := [], errorCount := 0 }
    link := { state := .down, estimate := 20, stable := 0, lastArrival := 0#32, lapseTaken := false, lossTaken := false }
    motion :=
      { speed := 0, speedValid := false, yaw := 0, yawValid := false, wheel := 0, wheelValid := false,
        requested := .off, lowIndex := 0, adaptiveIndex := 0, source := .stored }
    bend := { theta := .both 0, shift := .both 0, inputLost := false }
    table := TrackTable.empty
    windows := .both []
    composer :=
      { streams := .both StreamBuffer.empty, streamStale := false, inFlight := none, targets := .both TargetFrame.dark }
    segments := .both (List.replicate Config.positions SegmentRecord.dark)
    ports :=
      { left := Port.atReset [.fresh (some 16), .fresh (some 17), .fresh (some 18), .fresh none]
        right := Port.atReset [.fresh (some 32), .fresh (some 33), .fresh (some 34), .fresh none] }
    sup :=
      { mode := .dark, testActive := false, lowreqLevel := false, lowreqLine := false, lowreqHeld := none,
        sceneStale := true, program := none, current := none, walk := 0, dwell := 0 }
    time :=
      { count := 9999, expiryDue := false, sinceEvent := 0, flywheel := 0, syncLost := false, strobeActive := false,
        strobeLeft := 0, strobeIdle := .low, fsyncDriven := true, msClock := 0#32, msTicks := 0, frameCounter := 0#16 }
    bank := { active := [], staged := [], commitPending := false, outcome := .noOutcome, commitCount := 0#16 }
    mgmt :=
      { queue := [], sticky := 0#16, reportRequest := false, reportClaim := false, statusClaim := false,
        warmPending := false, manage := none }
    pending := [] }

end Sys2Proof.Machine
end

