-- ==== Sys2Proof/Machine/Bank.lean ====
section
/-! DEFINITION. The tables of the bank: catalogue, defaults, reading, writing, the parameters by name, and the
validation of a commit (chapter 10). -/

namespace Sys2Proof.Machine

open Sys2Proof

/-! ### Catalogue and defaults (R147, R149 to R152, R42, R65) -/

/-- Table ids (R147). -/
abbrev idLink : Nat := 0
abbrev idTimebase : Nat := 1
abbrev idBend : Nat := 2
abbrev idGeometryL : Nat := 3
abbrev idGeometryR : Nat := 4
abbrev idClass : Nat := 5
abbrev idTransition : Nat := 6
abbrev idDriverMap : Nat := 7
abbrev idSupervision : Nat := 8
abbrev idPattern0 : Nat := 16
abbrev idFallback : Nat := 32

/-- The words of a table; 0 for an id that names no table (R147, R148). -/
def tableSize (id : Nat) : Nat :=
  match id with
  | 0 => 8
  | 1 => 8
  | 2 => 12
  | 3 => 24
  | 4 => 24
  | 5 => 48
  | 6 => 8
  | 7 => 32
  | 8 => 24
  | n => if 16 ≤ n ∧ n ≤ 32 then 256 else 0

/-- Word `off` of a listed default. The words beyond the list are 0: spare words, as R149 and R150 state them, and in the
DRIVER_MAP, table 7, the words 24 to 31 of the two entries that are unused at a cold reset. The use words of these are 0 by
R151; that their side, address and run words are 0 too is the model's (DESIGN CHOICE, unsafe, log entry 29). -/
def defaultFrom (values : List Int) (off : Nat) : Word := BitVec.ofInt 16 (values.getD off 0)

/-- The default of a GEOMETRY table with the lateral lamp offset given (R150). -/
def geometryDefault (ox : Int) : List Int :=
  [3, 24, 125, -1500, 800, 200, 200, 0, 0, -300, -300, -500, 1, 1, 0, 0, ox, -1300, 60]

/-- The value every word takes at a cold reset (R149 to R152). -/
def defaultWord (id off : Nat) : Word :=
  match id with
  | 0 => defaultFrom [20, 4, 1, 1, 3, 500] off
  | 1 => defaultFrom [9999, 0, 0, 1000, 0, 10] off
  | 2 => defaultFrom [4200, 96, 2500, 320, 224, 1500, 8, 300] off
  | 3 => defaultFrom (geometryDefault (-1000)) off
  | 4 => defaultFrom (geometryDefault 1000) off
  | 5 => defaultFrom
      [6, 2, 3, 1, 40, 30, 20, 120, 40, 0, 0, 0,
       6, 2, 5, 0, 30, 30, 15, 100, 20, 0, 0, 0,
       6, 2, 3, 1, 60, 40, 25, 150, 50, 0, 0, 0,
       6, 2, 2, 0, 20, 20, 10, 60, 10, 300, 0, 0] off
  | 6 => defaultFrom [1023, 24, 256, 12] off
  | 7 => defaultFrom
      [0, 1, 16, 24, 0, 2, 17, 6168, 0, 3, 18, 12312,
       1, 1, 32, 24, 1, 2, 33, 6168, 1, 3, 34, 12312] off
  | 8 => defaultFrom [15, 100, 300, 5, 50, 0, 700, 5, 1000, 200, 3, 65535] off
  | 32 => if 48 ≤ off % 128 ∧ off % 128 ≤ 71 then 600#16 else 0#16
  | _ => 0#16

/-! ### Cells -/

/-- The cell of a table's word: no table has more than 256 words. -/
def cellOf (id off : Nat) : Nat := id * 256 + off

/-- The default of a cell. -/
def cellDefault (a : Nat) : Word := defaultWord (a / 256) (a % 256)

/-- The listed word of a cell. -/
def cellFind : BankCopy → Nat → Option Word
  | [], _ => none
  | (k, v) :: rest, a => if k = a then some v else cellFind rest a

/-- The word of a cell: the listed one, or the default. -/
def cellRead (b : BankCopy) (a : Nat) : Word := (cellFind b a).getD (cellDefault a)

/-- The list without a cell. -/
def cellErase : BankCopy → Nat → BankCopy
  | [], _ => []
  | (k, v) :: rest, a => if k = a then rest else (k, v) :: cellErase rest a

/-- The list with a cell at a word, in rising order. -/
def cellInsert : BankCopy → Nat → Word → BankCopy
  | [], a, w => [(a, w)]
  | (k, v) :: rest, a, w =>
    if a < k then (a, w) :: (k, v) :: rest
    else if a = k then (a, w) :: rest
    else (k, v) :: cellInsert rest a w

/-- Store a word in a cell, keeping the canonical form: a cell at its default is not listed. -/
def cellWrite (b : BankCopy) (a : Nat) (w : Word) : BankCopy :=
  if w = cellDefault a then cellErase b a else cellInsert b a w

/-- The canonical form: cells strictly rising (each above every one before it), none at its default. -/
def bankWf : BankCopy → Bool
  | [] => true
  | (k, v) :: rest => decide (v ≠ cellDefault k) && rest.all (fun c => decide (k < c.1)) && bankWf rest

/-- A word of a table (R148). -/
def bankRead (b : BankCopy) (id off : Nat) : Word := cellRead b (cellOf id off)

/-- Store one word (R148). -/
def bankWrite (b : BankCopy) (id off : Nat) (w : Word) : BankCopy := cellWrite b (cellOf id off) w

/-- Store words from an offset on, in order (R148). -/
def bankWriteAll (b : BankCopy) (id off : Nat) : List Word → BankCopy
  | [] => b
  | w :: ws => bankWriteAll (bankWrite b id off w) id (off + 1) ws

/-- `count` words from an offset on (R148). -/
def bankReadAll (b : BankCopy) (id off : Nat) : Nat → List Word
  | 0 => []
  | n + 1 => bankRead b id off :: bankReadAll b id (off + 1) n

/-- An unsigned field (section 10.2). -/
def natField (b : BankCopy) (id off : Nat) : Nat := (bankRead b id off).toNat

/-- A signed field, two's complement (section 10.2). -/
def intField (b : BankCopy) (id off : Nat) : Int := (bankRead b id off).toInt

/-! ### Parameters by name -/

/-- LINK (R130, R149). -/
def linkNominal (b : BankCopy) : Nat := natField b idLink 0
def linkTolerance (b : BankCopy) : Nat := natField b idLink 1
def linkHysteresis (b : BankCopy) : Nat := natField b idLink 2
/-- The stability count its code selects: 2, 4, 8 or 16 (R149). -/
def linkStability (b : BankCopy) : Nat := 2 ^ (natField b idLink 3 + 1)
def linkMultiple (b : BankCopy) : Nat := natField b idLink 4
def linkLossTimeout (b : BankCopy) : Nat := natField b idLink 5

/-- TIMEBASE (R136, R149). -/
def preload (b : BankCopy) : Nat := natField b idTimebase 0
/-- The sync source is EXTERNAL. -/
def syncExternal (b : BankCopy) : Bool := natField b idTimebase 1 != 0
/-- The sync edge. -/
def syncEdge (b : BankCopy) : SyncEdge := if natField b idTimebase 2 = 0 then .rising else .falling
def strobeWidth (b : BankCopy) : Nat := natField b idTimebase 3
def strobeIdleLevel (b : BankCopy) : LineLevel := if natField b idTimebase 4 = 0 then .low else .high
def statusPeriod (b : BankCopy) : Nat := natField b idTimebase 5

/-- BEND (R28, R149). -/
def wheelbase (b : BankCopy) : Nat := natField b idBend 0
def bendAlpha (b : BankCopy) : Nat := natField b idBend 1
def previewTime (b : BankCopy) : Nat := natField b idBend 2
def gainInner (b : BankCopy) : Nat := natField b idBend 3
def gainOuter (b : BankCopy) : Nat := natField b idBend 4
def thetaMax (b : BankCopy) : Nat := natField b idBend 5
def bendStep (b : BankCopy) : Nat := natField b idBend 6
def minSpeed (b : BankCopy) : Nat := natField b idBend 7

/-- GEOMETRY of a side (R150). -/
def geometryId : Side → Nat
  | .left => idGeometryL
  | .right => idGeometryR
def rowCount (b : BankCopy) (d : Side) : Nat := natField b (geometryId d) 0
def colCount (b : BankCopy) (d : Side) : Nat := natField b (geometryId d) 1
def colWidth (b : BankCopy) (d : Side) : Nat := natField b (geometryId d) 2
def spanLeft (b : BankCopy) (d : Side) : Int := intField b (geometryId d) 3
def rowTop (b : BankCopy) (d : Side) (r : Nat) : Int := intField b (geometryId d) (4 + 2 * r)
def rowBottom (b : BankCopy) (d : Side) (r : Nat) : Int := intField b (geometryId d) (5 + 2 * r)
/-- The band of a row is HIGH. -/
def rowHigh (b : BankCopy) (d : Side) (r : Nat) : Bool := natField b (geometryId d) (12 + r) != 0
def lampOx (b : BankCopy) (d : Side) : Int := intField b (geometryId d) 16
def lampOy (b : BankCopy) (d : Side) : Int := intField b (geometryId d) 17
def parallaxMargin (b : BankCopy) (d : Side) : Nat := natField b (geometryId d) 18
/-- R × C of a side (R1). -/
def segmentCount (b : BankCopy) (d : Side) : Nat := rowCount b d * colCount b d

/-- Class codes (R127). -/
def ObjClass.code : ObjClass → Nat
  | .oncoming => 0
  | .preceding => 1
  | .twoWheeler => 2
  | .reflector => 3

/-- Word `k` of a class's row of the CLASS table (R150). -/
def classField (b : BankCopy) (c : ObjClass) (k : Nat) : Nat := natField b idClass (12 * c.code + k)
def createConfidence (b : BankCopy) (c : ObjClass) : Nat := classField b c 0
def confirmHits (b : BankCopy) (c : ObjClass) : Nat := classField b c 1
def coastLimit (b : BankCopy) (c : ObjClass) : Nat := classField b c 2
def shadowsTentative (b : BankCopy) (c : ObjClass) : Bool := classField b c 3 != 0
def horizontalMargin (b : BankCopy) (c : ObjClass) : Nat := classField b c 4
def verticalMargin (b : BankCopy) (c : ObjClass) : Nat := classField b c 5
def coastWidening (b : BankCopy) (c : ObjClass) : Nat := classField b c 6
def maximumMargin (b : BankCopy) (c : ObjClass) : Nat := classField b c 7
def noRateMargin (b : BankCopy) (c : ObjClass) : Nat := classField b c 8
def residualLevel (b : BankCopy) (c : ObjClass) : Nat := classField b c 9

/-- TRANSITION (R81, R149). -/
def fallStep (b : BankCopy) : Nat := natField b idTransition 0
def riseStep (b : BankCopy) : Nat := natField b idTransition 1
def fallbackRiseStep (b : BankCopy) : Nat := natField b idTransition 2
def releaseHold (b : BankCopy) : Nat := natField b idTransition 3

/-- SUPERVISION (R149). -/
def latency (b : BankCopy) : Nat := natField b idSupervision 0
def minGap (b : BankCopy) : Nat := natField b idSupervision 1
def staleTimeout (b : BankCopy) : Nat := natField b idSupervision 2
def streamHold (b : BankCopy) : Nat := natField b idSupervision 3
def crowdedHoldLoad (b : BankCopy) : Nat := natField b idSupervision 4
def crowdedCap (b : BankCopy) : Nat := natField b idSupervision 5
def derateLevel (b : BankCopy) : Nat := natField b idSupervision 6
def testSpeedLimit (b : BankCopy) : Nat := natField b idSupervision 7
def passTimeout (b : BankCopy) : Nat := natField b idSupervision 8
def lampTimeout (b : BankCopy) : Nat := natField b idSupervision 9
def retryLimit (b : BankCopy) : Nat := natField b idSupervision 10
def reportEnable (b : BankCopy) : Word := bankRead b idSupervision 11

/-- A side's position in a stored pattern or the FALLBACK table (R5, R152). -/
def sideOffset : Side → Nat
  | .left => 0
  | .right => 128

/-- Position `n` of a side in stored pattern `i` (R152). -/
def patternLevel (b : BankCopy) (i : Nat) (d : Side) (n : Nat) : Nat := natField b (idPattern0 + i) (sideOffset d + n)

/-- Position `n` of a side in the FALLBACK table (R152). -/
def fallbackLevel (b : BankCopy) (d : Side) (n : Nat) : Nat := natField b idFallback (sideOffset d + n)

/-! ### The driver map (R151) -/

/-- The four words of entry `k`, read as they stand. -/
structure MapEntry where
  side : Nat
  chip : Nat
  address : Nat
  first : Nat
  count : Nat
  deriving DecidableEq, Repr

/-- Entry `k` of the driver map. -/
def mapEntry (b : BankCopy) (k : Nat) : MapEntry :=
  { side := natField b idDriverMap (4 * k), chip := natField b idDriverMap (4 * k + 1),
    address := natField b idDriverMap (4 * k + 2), first := natField b idDriverMap (4 * k + 3) / 256,
    count := natField b idDriverMap (4 * k + 3) % 256 }

/-- The code of a side in the tables and on the link: 0 LEFT, 1 RIGHT. -/
def sideCode : Side → Nat
  | .left => 0
  | .right => 1

/-- The entry that names an alias of a side; none where the alias is unused (R151). -/
def chipEntry (b : BankCopy) (d : Side) (chip : Nat) : Option MapEntry :=
  ((List.range 8).map (mapEntry b)).find? (fun e => e.chip != 0 && e.chip == chip && e.side == sideCode d)

/-- The chip records a reset gives a side under a driver map (R93). -/
def freshChips (b : BankCopy) (d : Side) : List ChipRecord :=
  [1, 2, 3, 4].map (fun chip => ChipRecord.fresh ((chipEntry b d chip).map MapEntry.address))

/-! ### Validation (R154) -/

/-- A word lies in a range. -/
def within (lo hi v : Nat) : Bool := decide (lo ≤ v) && decide (v ≤ hi)

/-- A signed word lies in a range. -/
def withinInt (lo hi v : Int) : Bool := decide (lo ≤ v) && decide (v ≤ hi)

/-- The checks of a LINK word (R130, R149, R154). -/
def linkWordOk (b : BankCopy) (off : Nat) : Bool :=
  let v := natField b idLink off
  match off with
  | 0 => within 5 200 v
  | 1 => within 0 50 v && decide (v < linkNominal b)
  | 2 => within 0 20 v
  | 3 => within 0 3 v
  | 4 => within 2 8 v
  | 5 => within 100 2000 v && decide ((linkNominal b + linkTolerance b) * linkMultiple b < v)
  | _ => v == 0

/-- The checks of a TIMEBASE word (R136, R149, R154). -/
def timebaseWordOk (b : BankCopy) (off : Nat) : Bool :=
  let v := natField b idTimebase off
  match off with
  | 0 => within 1999 49999 v
  | 1 => within 0 1 v
  | 2 => within 0 1 v
  | 3 => within 0 49999 v
  | 4 => within 0 1 v
  | 5 => within 0 255 v
  | _ => v == 0

/-- The checks of a BEND word (R28, R149, R154). -/
def bendWordOk (b : BankCopy) (off : Nat) : Bool :=
  let v := natField b idBend off
  match off with
  | 0 => within 2500 8000 v
  | 1 => within 0 256 v
  | 2 => within 500 6000 v
  | 3 => within 0 512 v
  | 4 => within 0 512 v
  | 5 => within 0 2000 v
  | 6 => within 1 100 v
  | 7 => within 0 2000 v
  | _ => v == 0

/-- The checks of a GEOMETRY word (R150, R154). The bounds and band of a row at or beyond R are not validated. -/
def geometryWordOk (b : BankCopy) (d : Side) (off : Nat) : Bool :=
  let v := natField b (geometryId d) off
  let i := intField b (geometryId d) off
  if off = 0 then within 1 4 v
  else if off = 1 then within 8 32 v
  else if off = 2 then within 50 400 v
  else if off = 3 then withinInt (-3000) 3000 i && decide (i + (colCount b d : Int) * (colWidth b d : Int) ≤ 3000)
  else if off < 12 then
    let r := (off - 4) / 2
    if rowCount b d ≤ r then true
    else if off % 2 = 0 then
      withinInt (-500) 1000 i && (r == 0 || decide (i ≤ rowBottom b d (r - 1)))
    else withinInt (-500) 1000 i && decide (i < rowTop b d r)
  else if off < 16 then (decide (rowCount b d ≤ off - 12) || within 0 1 v)
  else if off = 16 then withinInt (-1500) 1500 i
  else if off = 17 then withinInt (-3000) 500 i
  else if off = 18 then within 0 300 v
  else v == 0

/-- The checks of a CLASS word (R42, R65, R150, R154). -/
def classWordOk (b : BankCopy) (off : Nat) : Bool :=
  let v := natField b idClass off
  match off % 12 with
  | 0 => within 0 15 v
  | 1 => within 1 15 v
  | 2 => within 0 14 v
  | 3 => within 0 1 v
  | 4 => within 0 500 v
  | 5 => within 0 500 v
  | 6 => within 0 200 v
  | 7 => within 0 1000 v
  | 8 => within 0 500 v
  | 9 => within 0 1023 v
  | _ => v == 0

/-- The checks of a TRANSITION word (R81, R149, R154). -/
def transitionWordOk (b : BankCopy) (off : Nat) : Bool :=
  let v := natField b idTransition off
  match off with
  | 0 => within 1 1023 v
  | 1 => within 1 1023 v
  | 2 => within 1 1023 v
  | 3 => within 0 255 v
  | _ => v == 0

/-- Two runs of segments overlap. -/
def runsOverlap (e f : MapEntry) : Bool :=
  decide (e.first < f.first + f.count) && decide (f.first < e.first + e.count)

/-- The side a map entry's side word names. -/
def entrySide (e : MapEntry) : Side := if e.side = 0 then .left else .right

/-- The checks of a DRIVER_MAP word (R151, R154): an entry with alias 0 is not validated. -/
def driverMapWordOk (b : BankCopy) (off : Nat) : Bool :=
  let k := off / 4
  let e := mapEntry b k
  let earlier := ((List.range k).map (mapEntry b)).filter (fun f => f.chip != 0 && f.side == e.side)
  if e.chip = 0 then true
  else match off % 4 with
  | 0 => within 0 1 e.side
  | 1 => within 1 4 e.chip && !earlier.any (fun f => f.chip == e.chip)
  | 2 => within 1 127 e.address && !earlier.any (fun f => f.address == e.address)
  | _ => within 1 32 e.count && decide (e.first + e.count ≤ segmentCount b (entrySide e))
      && !earlier.any (runsOverlap e)

/-- The checks of a SUPERVISION word (R149, R154). -/
def supervisionWordOk (b : BankCopy) (off : Nat) : Bool :=
  let v := natField b idSupervision off
  match off with
  | 0 => within 0 100 v
  | 1 => within 0 1000 v
  | 2 => within 50 5000 v
  | 3 => within 0 255 v
  | 4 => within 0 1000 v
  | 5 => within 0 1023 v
  | 6 => within 0 1023 v
  | 7 => within 0 100 v
  | 8 => within 20 5000 v
  | 9 => within 20 1000 v
  | 10 => within 0 7 v
  | 11 => true
  | _ => v == 0

/-- The side of a word of a PATTERN or FALLBACK table (R152). -/
def patternSide (off : Nat) : Side := if off < 128 then .left else .right

/-- The checks of a PATTERN or FALLBACK word (R152, R154): a level, and 0 at or beyond R × C of its side. -/
def patternWordOk (b : BankCopy) (id off : Nat) : Bool :=
  within 0 Config.maxLevel (natField b id off)
    && (decide (off % 128 < segmentCount b (patternSide off)) || natField b id off == 0)

/-- Every check that names a word (R154). -/
def wordOk (b : BankCopy) (id off : Nat) : Bool :=
  match id with
  | 0 => linkWordOk b off
  | 1 => timebaseWordOk b off
  | 2 => bendWordOk b off
  | 3 => geometryWordOk b .left off
  | 4 => geometryWordOk b .right off
  | 5 => classWordOk b off
  | 6 => transitionWordOk b off
  | 7 => driverMapWordOk b off
  | 8 => supervisionWordOk b off
  | _ => patternWordOk b id off

/-- The tables in increasing id (R154). -/
def tableIds : List Nat :=
  [0, 1, 2, 3, 4, 5, 6, 7, 8, 16, 17, 18, 19, 20, 21, 22, 23, 24, 25, 26, 27, 28, 29, 30, 31, 32]

/-- The first word of a table that fails a check. -/
def tableFault (b : BankCopy) (id : Nat) : Option Nat := (List.range (tableSize id)).find? (fun off => !wordOk b id off)

/-- The first word that fails a check: table id and offset; none when validation passes (R154). -/
def bankFault (b : BankCopy) : Option (Nat × Nat) :=
  tableIds.findSome? (fun id => (tableFault b id).map (fun off => (id, off)))

end Sys2Proof.Machine
end

