-- ==== Sys2Proof/Machine/Operands.lean ====
section
/-! DEFINITION. Exact arithmetic of section 6 of 00_scope.md, and the values that the operands of the commands carry:
MOTION and SCENE fields (R25, R43, R126, R127) and MANAGE parameters (R128). -/

namespace Sys2Proof.Machine

open Sys2Proof

/-! ### Rounding and clamping (00_scope.md section 6) -/

/-- A value clamped to a range. -/
def clampInt (lo hi v : Int) : Int := max lo (min hi v)

/-- The quotient rounded half away from zero, for a positive divisor. -/
def roundDiv (n d : Int) : Int :=
  if 0 ≤ n then (2 * n + d) / (2 * d) else -((2 * (-n) + d) / (2 * d))

/-- Two ms clock values subtracted modulo 2 to the power 32 (R145). -/
def msSince (now thenTime : MsTime) : Nat := (now - thenTime).toNat

/-! ### MOTION (R25, R126) -/

/-- The function a code names; one that names none is stored as LOW (R25). -/
def lightFnOf (code : Byte) : LightFn :=
  if code = 0#8 then .off else if code = 2#8 then .adaptive else .low

/-- The held motion record a MOTION payload gives, clamped (R25). -/
def motionOf (m : MotionPayload) : Motion :=
  { speed := min 2000 m.speed.toNat
    speedValid := m.flags.getLsbD 0
    yaw := clampInt (-12000) 12000 m.yaw.toInt
    yawValid := m.flags.getLsbD 1
    wheel := clampInt (-4500) 4500 m.wheel.toInt
    wheelValid := m.flags.getLsbD 2
    requested := lightFnOf m.function
    lowIndex := m.indices.toNat / 16
    adaptiveIndex := m.indices.toNat % 16
    source := if m.flags.getLsbD 3 then .streamed else .stored }

/-! ### SCENE reports (R43, R44, R127) -/

/-- The class a code names (R127). -/
def objClassOf (code : Byte) : Option ObjClass :=
  match code.toNat with
  | 0 => some .oncoming
  | 1 => some .preceding
  | 2 => some .twoWheeler
  | 3 => some .reflector
  | _ => none

/-- A checked report with the values of R43. -/
structure Report where
  objectId : Nat
  cls : ObjClass
  left : Int
  right : Int
  bottom : Int
  top : Option Int
  rate : Option Int
  distance : Option Nat
  confidence : Nat
  captureAge : Nat
  deriving DecidableEq, Repr

/-- The report a record gives (R43), or none where it fails its check (R44). -/
def reportOf (r : SceneReport) : Option Report :=
  let top := if r.presence.getLsbD 0 then some r.top.toInt else none
  match objClassOf r.classCode with
  | none => none
  | some c =>
    if r.objectId = 0#8 ∨ r.objectId = 255#8 ∨ r.right.toInt < r.left.toInt ∨ top.any (fun t => decide (t < r.bottom.toInt)) then
      none
    else
      some
        { objectId := r.objectId.toNat
          cls := c
          left := r.left.toInt
          right := r.right.toInt
          bottom := r.bottom.toInt
          top := top
          rate := if r.presence.getLsbD 1 then some (clampInt (-3000) 3000 r.rate.toInt) else none
          distance := if r.presence.getLsbD 2 then some (max 10 (min 5000 r.distance.toNat)) else none
          confidence := r.confidence.toNat % 16
          captureAge := r.captureAge.toNat }

/-! ### MANAGE parameters (R128). Each reader answers none where the parameter length is not the command's layout. -/

/-- No parameters. -/
def noArgs : List Byte → Option Unit
  | [] => some ()
  | _ => none

/-- One byte. -/
def byteArg : List Byte → Option Byte
  | [b] => some b
  | _ => none

/-- One two-byte field. -/
def wordArg : List Byte → Option Word
  | [hi, lo] => some (wordOf hi lo)
  | _ => none

/-- TABLE WRITE's parameters. -/
structure WriteArgs where
  table : Nat
  offset : Nat
  words : List Word
  deriving DecidableEq, Repr

/-- TABLE WRITE: table id 1, word offset 2, word count 1, words 2 each; 4 bytes plus 2 for each word counted (R159). -/
def writeArgs : List Byte → Option WriteArgs
  | t :: o1 :: o2 :: n :: rest =>
    match parseWords rest with
    | some ws => if ws.length = n.toNat then some { table := t.toNat, offset := (wordOf o1 o2).toNat, words := ws } else none
    | none => none
  | _ => none

/-- TABLE READ's parameters. -/
structure ReadArgs where
  table : Nat
  copyCode : Nat
  offset : Nat
  count : Nat
  deriving DecidableEq, Repr

/-- TABLE READ: table id 1, copy 1, word offset 2, word count 1. -/
def readArgs : List Byte → Option ReadArgs
  | [t, c, o1, o2, n] => some { table := t.toNat, copyCode := c.toNat, offset := (wordOf o1 o2).toNat, count := n.toNat }
  | _ => none

/-- The patterns a bit set enables, in the fixed order (R119, R128); bits 5 to 7 are ignored. -/
def enabledOf (b : Byte) : List TestPattern :=
  (if b.getLsbD 0 then [.solid] else []) ++ (if b.getLsbD 1 then [.checker] else [])
    ++ (if b.getLsbD 2 then [.columnWalk] else []) ++ (if b.getLsbD 3 then [.rowWalk] else [])
    ++ (if b.getLsbD 4 then [.stored] else [])

/-- TEST ENTER: enabled set 1, stored index 1, level 2, checker scale 1, invert 1, dwell frames 2, auto-advance 1. -/
def programArgs : List Byte → Option TestProgram
  | [e, i, l1, l2, c, v, d1, d2, a] =>
    some
      { enabled := enabledOf e, storedIndex := i.toNat, level := (wordOf l1 l2).toNat, scale := c.toNat,
        invert := v != 0#8, dwellFrames := (wordOf d1 d2).toNat, autoAdvance := a != 0#8 }
  | _ => none

/-- A program is well formed: the enabled set is not empty and every field lies in its range (R119). -/
def TestProgram.wellFormed (p : TestProgram) : Bool :=
  !p.enabled.isEmpty && decide (p.storedIndex ≤ 15) && decide (p.level ≤ Config.maxLevel)
    && within 1 2 p.scale && within 1 1000 p.dwellFrames

/-- DRIVER PASS's parameters as carried. -/
structure PassArgs where
  side : Byte
  chip : Nat
  direction : Nat
  register : Nat
  value : Word
  deriving DecidableEq, Repr

/-- DRIVER PASS: side 1, alias 1, direction 1 (0 READ, 1 WRITE), chip register 1, value 2. -/
def passArgs : List Byte → Option PassArgs
  | [s, c, d, r, v1, v2] =>
    some { side := s, chip := c.toNat, direction := d.toNat, register := r.toNat, value := wordOf v1 v2 }
  | _ => none

end Sys2Proof.Machine
end

