-- ==== Sys2Proof/Machine/Bend.lean ====
section
/-! DEFINITION. The Bend Unit (chapter 2). -/

namespace Sys2Proof.Machine

open Sys2Proof

/-- How the inputs qualify (R29): no target with BEND_INPUT_LOST, no target without it, or the weight α of stage 2. -/
inductive BendInput where
  | lost
  | slow
  | usable (alpha : Int)
  deriving DecidableEq, Repr

/-- The qualification of the inputs, the rows of R29 from the top. -/
def bendInput (b : BankCopy) (m : Motion) : BendInput :=
  if !m.speedValid then .lost
  else if !m.yawValid && !m.wheelValid then .lost
  else if m.speed < minSpeed b then .slow
  else if m.yawValid && m.wheelValid then .usable (bendAlpha b)
  else if m.wheelValid then .usable 256
  else .usable 0

/-- Stage 1: the steering yaw rate ωs (R30). -/
def steeringRate (b : BankCopy) (m : Motion) : Int :=
  clampInt (-32767) 32767 (roundDiv ((m.speed : Int) * m.wheel * 250) (9 * (wheelbase b : Int)))

/-- Stage 2: the effective yaw rate ωe (R31). -/
def effectiveRate (alpha ws wm : Int) : Int := roundDiv (alpha * ws + (256 - alpha) * wm) 256

/-- Stage 3: the preview angle θ (R32). -/
def previewAngle (b : BankCopy) (we : Int) : Int := roundDiv ((previewTime b : Int) * we) 2000

/-- The inner lamp of a curve (R33): RIGHT for θ ≥ 0, LEFT for θ < 0. -/
def innerSide (theta : Int) : Side := if 0 ≤ theta then .right else .left

/-- Stage 4: the target bend of a side (R33). -/
def bendTarget (b : BankCopy) (theta : Int) (d : Side) : Int :=
  let gain := if innerSide theta = d then gainInner b else gainOuter b
  clampInt (-(thetaMax b : Int)) (thetaMax b) (roundDiv (theta * (gain : Int)) 256)

/-- The preview angle of a record under the weight α: stages 1 to 3. -/
def previewOf (b : BankCopy) (m : Motion) (alpha : Int) : Int :=
  previewAngle b (effectiveRate alpha (steeringRate b m) m.yaw)

/-- The target of a side from the held motion record (R29 to R33). -/
def bendTargetOf (b : BankCopy) (m : Motion) (d : Side) : Int :=
  match bendInput b m with
  | .usable alpha => bendTarget b (previewOf b m alpha) d
  | _ => 0

/-- Stage 5: the previous angle moved toward the target by at most Δθ (R34). -/
def slew (step previous target : Int) : Int :=
  if previous + step < target then previous + step
  else if target < previous - step then previous - step
  else target

/-- Stage 6: the column shift of an angle (R35). -/
def columnShift (b : BankCopy) (d : Side) (theta : Int) : Int :=
  clampInt (-16 * (colCount b d : Int)) (16 * (colCount b d : Int)) (roundDiv (theta * 16) (colWidth b d))

/-- The pass of stages 1 to 6 at an output frame event in NORMAL and HOLD (R28). -/
def BendUnit.pass (b : BankCopy) (m : Motion) (u : BendUnit) : BendUnit :=
  let theta := Sided.of fun d => slew (bendStep b) (u.theta.get d) (bendTargetOf b m d)
  { theta := theta
    shift := Sided.of fun d => columnShift b d (theta.get d)
    inputLost := bendInput b m == .lost }

/-- The bend at an output frame event, by the beam mode (R28): the pass in NORMAL and HOLD; in the other modes the
stages are not run and BEND_INPUT_LOST is cleared. -/
def BendUnit.frame (b : BankCopy) (mode : BeamMode) (m : Motion) (u : BendUnit) : BendUnit :=
  match mode with
  | .normal => u.pass b m
  | .hold => u.pass b m
  | _ => { u with inputLost := false }

/-- The bend set to 0 on entry to FALLBACK, DARK or TEST (R38). -/
def BendUnit.straight (u : BendUnit) : BendUnit := { u with theta := .both 0, shift := .both 0 }

/-- A commit clamps each bend angle to the θmax it brings (R37). -/
def BendUnit.commitClamp (b : BankCopy) (u : BendUnit) : BendUnit :=
  { u with theta := Sided.of fun d => clampInt (-(thetaMax b : Int)) (thetaMax b) (u.theta.get d) }

end Sys2Proof.Machine
end

