-- ==== Sys2Proof/Machine/Windows.lean ====
section
/-! DEFINITION. The Window Builder (chapter 4). -/

namespace Sys2Proof.Machine

open Sys2Proof

/-- A track casts a shadow (R64). -/
def casts (b : BankCopy) (t : Track) : Bool :=
  match t.state with
  | .confirmed => true
  | .coasting => true
  | .tentative => shadowsTentative b t.cls
  | .free => false

/-- The prediction horizon h, ms (R66). -/
def horizon (b : BankCopy) (now : MsTime) (t : Track) : Nat := min 1000 (t.captureAge + msSince now t.arrival + latency b)

/-- The prediction offset Δ (R67). -/
def predictionOffset (b : BankCopy) (now : MsTime) (t : Track) : Int :=
  match t.rate with
  | some r => roundDiv (r * (horizon b now t : Int)) 1000
  | none => 0

/-- The parallax correction of a lamp offset at the track's distance: minus the rounded angle, 0 without a distance
(R68, R69). -/
def parallax (offset : Int) (t : Track) : Int :=
  match t.distance with
  | some d => -(roundDiv (offset * 573) ((d : Int) * 10))
  | none => 0

/-- The side's parallax margin where the track is without distance (R69). -/
def distanceMargin (b : BankCopy) (d : Side) (t : Track) : Nat := if t.distance.isSome then 0 else parallaxMargin b d

/-- The horizontal margin of a candidate (R70). -/
def sideMargin (b : BankCopy) (d : Side) (t : Track) : Nat :=
  min (maximumMargin b t.cls) (horizontalMargin b t.cls + t.misses * coastWidening b t.cls)
    + (if t.rate.isSome then 0 else noRateMargin b t.cls) + distanceMargin b d t

/-- The vertical margin of a candidate (R71). -/
def heightMargin (b : BankCopy) (d : Side) (t : Track) : Nat := verticalMargin b t.cls + distanceMargin b d t

/-- The candidate of a track on a side before clipping (R66 to R71). -/
def candidate (b : BankCopy) (now : MsTime) (d : Side) (t : Track) : Window :=
  let dx := predictionOffset b now t + parallax (lampOx b d) t
  let dy := parallax (lampOy b d) t
  { left := t.left + dx - sideMargin b d t
    right := t.right + dx + sideMargin b d t
    bottom := t.bottom + dy - heightMargin b d t
    top := match t.top with
      | some top => top + dy + heightMargin b d t
      | none => 1000
    residual := residualLevel b t.cls
    cls := t.cls }

/-- The right end of a side's lamp span (R72). -/
def spanRight (b : BankCopy) (d : Side) : Int := spanLeft b d + (colCount b d : Int) * (colWidth b d : Int)

/-- A candidate clipped to its side's lamp (R72). -/
def clip (b : BankCopy) (d : Side) (w : Window) : Window :=
  { w with
    left := max (spanLeft b d) w.left, right := min (spanRight b d) w.right
    bottom := max (-500) w.bottom, top := min 1000 w.top }

/-- A clipped candidate is kept (R72). -/
def kept (w : Window) : Bool := decide (w.left < w.right) && decide (w.bottom < w.top)

/-- The kept candidates of a side, in slot order (R64, R72). -/
def candidates (b : BankCopy) (now : MsTime) (d : Side) (ts : List Track) : List Window :=
  ((ts.filter (casts b)).map (fun t => clip b d (candidate b now d t))).filter kept

/-- The order of the sort: left edge, then right edge (R73). -/
def before (v w : Window) : Bool := decide (v.left < w.left) || (v.left == w.left && decide (v.right ≤ w.right))

/-- Place a candidate of an earlier slot among sorted ones of later slots: before its equals (R73). -/
def placeWindow (w : Window) : List Window → List Window
  | [] => [w]
  | v :: vs => if before w v then w :: v :: vs else v :: placeWindow w vs

/-- The candidates sorted by left edge, right edge and slot (R73). -/
def sortWindows : List Window → List Window
  | [] => []
  | w :: ws => placeWindow w (sortWindows ws)

/-- The current window with a candidate merged into it (R74). -/
def mergeInto (current w : Window) : Window :=
  { left := current.left
    right := max current.right w.right
    bottom := min current.bottom w.bottom
    top := max current.top w.top
    residual := min current.residual w.residual
    cls := if w.residual < current.residual then w.cls else current.cls }

/-- The sweep from a current window on (R74). -/
def sweepFrom (gap : Int) (current : Window) : List Window → List Window
  | [] => [current]
  | w :: ws =>
    if w.left - current.right < gap then sweepFrom gap (mergeInto current w) ws
    else current :: sweepFrom gap w ws

/-- The sweep over the sorted candidates (R74). -/
def sweep (gap : Int) : List Window → List Window
  | [] => []
  | w :: ws => sweepFrom gap w ws

/-- A side's window list built from the Track Table (R63). -/
def buildWindows (b : BankCopy) (now : MsTime) (d : Side) (ts : List Track) : List Window :=
  sweep (minGap b) (sortWindows (candidates b now d ts))

/-- Both window lists at an output frame event: built in NORMAL with ADAPTIVE, else empty (R63). -/
def windowsAt (b : BankCopy) (now : MsTime) (mode : BeamMode) (fn : LightFn) (ts : List Track) : Sided (List Window) :=
  if mode = .normal ∧ fn = .adaptive then Sided.of (fun d => buildWindows b now d ts) else .both []

/-- A window covers segment (r, c) of a side (R76). -/
def covers (b : BankCopy) (d : Side) (w : Window) (r c : Nat) : Bool :=
  decide (w.left < spanLeft b d + ((c : Int) + 1) * (colWidth b d : Int))
    && decide (spanLeft b d + (c : Int) * (colWidth b d : Int) < w.right)
    && decide (w.bottom < rowTop b d r) && decide (rowBottom b d r < w.top)

/-- Windows of a list counted by source class (R77). -/
def countClass (c : ObjClass) (ws : List Window) : Nat := (ws.filter (fun w => w.cls = c)).length

/-- The four counts of a list (R77). -/
def windowCounts (ws : List Window) : WindowCounts :=
  { oncoming := countClass .oncoming ws, preceding := countClass .preceding ws,
    twoWheeler := countClass .twoWheeler ws, reflector := countClass .reflector ws }

end Sys2Proof.Machine
end

