-- ==== Sys2Proof/Machine/Compose.lean ====
section
/-! DEFINITION. The Frame Composer (chapter 1) and the forming of test patterns (R120, R121). -/

namespace Sys2Proof.Machine

open Sys2Proof

/-! ### Streamed pattern buffers (section 1.4) -/

/-- The buffer a PATTERN frame writes: levels clamped to 1023, age 0, valid (R8). -/
def streamOf (levels : List Word) : StreamBuffer :=
  { levels := levels.map (fun w => min Config.maxLevel w.toNat), age := 0, valid := true }

/-- A buffer is fresh (R6). -/
def StreamBuffer.fresh (b : BankCopy) (s : StreamBuffer) : Bool := s.valid && decide (s.age ≤ streamHold b)

/-- The age's increment at an output frame event, up to 255 (R9). -/
def StreamBuffer.older (s : StreamBuffer) : StreamBuffer := { s with age := min 255 (s.age + 1) }

/-- The mode, function and source call for a streamed pattern (R5, R6). -/
def wantsStream (mode : BeamMode) (fn : LightFn) (src : PatternSource) : Bool :=
  decide (mode = .normal) && decide (fn = .adaptive) && decide (src = .streamed)

/-- STREAM_STALE as an output frame event decides it (R6). -/
def streamStaleAt (b : BankCopy) (mode : BeamMode) (fn : LightFn) (src : PatternSource) (ss : Sided StreamBuffer) : Bool :=
  wantsStream mode fn src && !(ss.left.fresh b && ss.right.fresh b)

/-! ### The stages of composition (section 1.2) -/

/-- Stage 1: position `n` of a side's base pattern (R5, R6). -/
def baseLevel (x : CompositionInputs) (d : Side) (n : Nat) : Nat :=
  match x.mode with
  | .normal =>
    match x.function with
    | .off => 0
    | .low => patternLevel x.active x.lowIndex d n
    | .adaptive =>
      if x.source = .streamed ∧ (x.streams.get d).fresh x.active = true then (x.streams.get d).levels.getD n 0
      else patternLevel x.active x.adaptiveIndex d n
  | .hold =>
    match x.function with
    | .off => 0
    | _ => patternLevel x.active x.lowIndex d n
  | .fallback => fallbackLevel x.active d n
  | .dark => 0
  | .test => (x.test.get d).getD n 0

/-- A base value of a row, the edge value held outside the row (R12). -/
def rowSample (bp : Nat → Nat) (cols : Nat) (k : Int) : Nat :=
  bp (clampInt 0 ((cols : Int) - 1) k).toNat

/-- The shifted value at column `c` of a row (R11, R12). -/
def shiftedValue (bp : Nat → Nat) (cols : Nat) (s16 : Int) (c : Nat) : Nat :=
  let p := 16 * (c : Int) - s16
  let k := p / 16
  let f := (p - 16 * k).toNat
  ((16 - f) * rowSample bp cols k + f * rowSample bp cols (k + 1) + 8) / 16

/-- Stage 2: the value of segment (r, c) (R10). -/
def bentLevel (x : CompositionInputs) (d : Side) (r c : Nat) : Nat :=
  let cols := colCount x.active d
  let bp := fun i => baseLevel x d (r * cols + i)
  if x.mode = .normal ∨ x.mode = .hold then shiftedValue bp cols (x.shift.get d) c else bp c

/-- Stages 3 and 4 apply: NORMAL with effective function ADAPTIVE (R13, R15). -/
def CompositionInputs.adaptive (x : CompositionInputs) : Bool :=
  decide (x.mode = .normal) && decide (x.function = .adaptive)

/-- The windows of a side's list that cover segment (r, c) (R13, R76). -/
def coveringWindows (x : CompositionInputs) (d : Side) (r c : Nat) : List Window :=
  (x.windows.get d).filter (fun w => covers x.active d w r c)

/-- The shadowed flag of segment (r, c) (R13, R14). -/
def shadowedAt (x : CompositionInputs) (d : Side) (r c : Nat) : Bool :=
  x.adaptive && !(coveringWindows x d r c).isEmpty

/-- Stage 3: a value lowered to the residuals of the covering windows (R13). -/
def shadowLevel (x : CompositionInputs) (d : Side) (r c v : Nat) : Nat :=
  if x.adaptive then (coveringWindows x d r c).foldl (fun m w => min m w.residual) v else v

/-- Stage 4: the crowded cap on a HIGH row (R15). -/
def crowdedLevel (x : CompositionInputs) (d : Side) (r v : Nat) : Nat :=
  if x.adaptive && decide (0 < x.crowded) && rowHigh x.active d r then min v (crowdedCap x.active) else v

/-- Stage 5: the derate cap (R16). -/
def deratedLevel (x : CompositionInputs) (d : Side) (v : Nat) : Nat :=
  if decide (x.mode ≠ .test) && x.derate.get d then min v (derateLevel x.active) else v

/-- The target of segment (r, c) (section 1.2, R17). -/
def segmentTarget (x : CompositionInputs) (d : Side) (r c : Nat) : Nat :=
  deratedLevel x d (crowdedLevel x d r (shadowLevel x d r c (bentLevel x d r c)))

/-- The target of position `n`: 0 beyond R × C (R1). -/
def targetLevel (x : CompositionInputs) (d : Side) (n : Nat) : Nat :=
  let cols := colCount x.active d
  if n < segmentCount x.active d then segmentTarget x d (n / cols) (n % cols) else 0

/-- The shadowed flag of position `n`: clear beyond R × C (R1). -/
def targetFlag (x : CompositionInputs) (d : Side) (n : Nat) : Bool :=
  let cols := colCount x.active d
  decide (n < segmentCount x.active d) && shadowedAt x d (n / cols) (n % cols)

/-- A side's target frame and shadowed flags (R18). -/
def targetFrame (x : CompositionInputs) (d : Side) : TargetFrame :=
  { levels := (List.range Config.positions).map (targetLevel x d)
    shadowed := (List.range Config.positions).map (targetFlag x d) }

/-! ### Test patterns (R119 to R121) -/

/-- The value of segment (r, c) before inversion (R120). -/
def testValue (b : BankCopy) (d : Side) (p : TestProgram) (pat : TestPattern) (walk r c : Nat) : Nat :=
  match pat with
  | .solid => p.level
  | .checker => if (r / p.scale + c / p.scale) % 2 = 0 then p.level else 0
  | .columnWalk => if c = walk then p.level else 0
  | .rowWalk => if r = walk then p.level else 0
  | .stored => patternLevel b p.storedIndex d (r * colCount b d + c)

/-- Position `n` of a side's test pattern (R120): unused positions 0, inverted or not. -/
def testLevel (b : BankCopy) (d : Side) (p : TestProgram) (pat : TestPattern) (walk n : Nat) : Nat :=
  let cols := colCount b d
  if n < segmentCount b d then
    let v := testValue b d p pat walk (n / cols) (n % cols)
    if p.invert then Config.maxLevel - v else v
  else 0

/-- A side's test pattern as the Beam Supervisor forms it (R120); all 0 where no test runs. -/
def testPatternOf (b : BankCopy) (u : Supervisor) (d : Side) : List Nat :=
  match u.program, u.current with
  | some p, some pat => (List.range Config.positions).map (testLevel b d p pat u.walk)
  | _, _ => List.replicate Config.positions 0

/-- A pattern's place in the fixed order of R119. -/
def TestPattern.order : TestPattern → Nat
  | .solid => 0
  | .checker => 1
  | .columnWalk => 2
  | .rowWalk => 3
  | .stored => 4

/-- The next enabled pattern after the current one, taken cyclically (R121). -/
def nextPattern (enabled : List TestPattern) (current : TestPattern) : TestPattern :=
  match enabled.find? (fun q => decide (current.order < q.order)) with
  | some q => q
  | none => enabled.headD current

/-- The sweep length of a walk (R121). -/
def sweepLength (b : BankCopy) : TestPattern → Nat
  | .columnWalk => max (colCount b .left) (colCount b .right)
  | .rowWalk => max (rowCount b .left) (rowCount b .right)
  | _ => 0

/-- The pattern is a walk (R121). -/
def TestPattern.walks : TestPattern → Bool
  | .columnWalk => true
  | .rowWalk => true
  | _ => false

/-- The program moves on at the end of a dwell (R121). -/
def moveOn (b : BankCopy) (p : TestProgram) (pat : TestPattern) (walk : Nat) : TestPattern × Nat :=
  let next := if p.autoAdvance then nextPattern p.enabled pat else pat
  if pat.walks then
    if walk + 1 < sweepLength b pat then (pat, walk + 1) else (next, 0)
  else (next, if p.autoAdvance then 0 else walk)

/-- The dwell count and advance at an output frame event in TEST, after the pattern has been formed (R121). -/
def Supervisor.advance (b : BankCopy) (u : Supervisor) : Supervisor :=
  match u.program, u.current with
  | some p, some pat =>
    if u.dwell + 1 = p.dwellFrames then
      let (q, w) := moveOn b p pat u.walk
      { u with dwell := 0, current := some q, walk := w }
    else { u with dwell := u.dwell + 1 }
  | _, _ => u

end Sys2Proof.Machine
end

