-- ==== Sys2Proof/Machine/Flags.lean ====
section
/-! DEFINITION. The sticky flags and the report request (R129, R163). -/

namespace Sys2Proof.Machine

open Sys2Proof

/-- The bit of a sticky flag (R129). -/
def Flag.bit : Flag → Nat
  | .frameError => 0
  | .manageOverrun => 1
  | .sceneTruncated => 2
  | .sceneCrowded => 3
  | .syncMissing => 4
  | .syncEarly => 5
  | .linkLapsed => 6
  | .linkDown => 7
  | .commitRejected => 8
  | .testEnded => 9
  | .driverLost .left => 10
  | .driverLost .right => 11
  | .thermalStop .left => 12
  | .thermalStop .right => 13
  | .frameSuperseded .left => 14
  | .frameSuperseded .right => 15

/-- The word with the bit of one flag set. -/
def Flag.mask (f : Flag) : Word := BitVec.twoPow 16 f.bit

/-- The mask of a flag where a condition holds, and no bit otherwise. -/
def Flag.maskIf (f : Flag) (c : Bool) : Word := if c then f.mask else 0#16

/-- A flag is set. -/
def State.flag (s : State) (f : Flag) : Bool := s.mgmt.sticky.getLsbD f.bit

/-- Events set the flags of a mask; one whose bit is set in the report-enable mask of ACTIVE SUPERVISION also sets the
report request, whether or not the flag was already set (R163). -/
def Management.raise (m : Management) (enable mask : Word) : Management :=
  { m with
    sticky := m.sticky ||| mask
    reportRequest := m.reportRequest || (mask &&& enable) != 0#16 }

/-- Set the flags of a mask (R163). -/
def State.raise (s : State) (mask : Word) : State :=
  { s with mgmt := s.mgmt.raise (reportEnable s.bank.active) mask }

end Sys2Proof.Machine
end

