-- ==== Sys2Proof/Machine/Link.lean ====
section
/-! DEFINITION. The Link Receiver's bookkeeping (R122, R123) and the Link Monitor (section 8.3). -/

namespace Sys2Proof.Machine

open Sys2Proof

/-! ### Link Receiver -/

/-- A START begins a frame: the buffer is emptied (R122). -/
def Receiver.begin (r : Receiver) : Receiver := { r with assembling := true, buffer := [] }

/-- A frame was assembled and accepted: its bytes fill the buffer up to the next START (R122, R124). Where the Receiver is
assembling, the START already received is the accepted frame's own, so no partial frame is discarded and no frame error is
counted (DESIGN CHOICE, unsafe, log entry 31). -/
def Receiver.accepted (r : Receiver) (data : List Byte) : Receiver := { r with assembling := false, buffer := data }

/-- A frame is discarded as a frame error: the count rises, up to 65535, and the Receiver is assembling afterwards only
where a new START caused it (R122, R123). -/
def Receiver.discard (r : Receiver) (restarted : Bool) : Receiver :=
  { assembling := restarted, buffer := [], errorCount := min 65535 (r.errorCount + 1) }

/-! ### Link Monitor -/

/-- The gap timer: the ms clock less the last arrival time (R130). -/
def LinkMonitor.gap (m : LinkMonitor) (now : MsTime) : Nat := msSince now m.lastArrival

/-- The lapse threshold E × M (R131). -/
def lapseThreshold (b : BankCopy) (m : LinkMonitor) : Nat := m.estimate * linkMultiple b

/-- E clamped to the band from nominal − tolerance to nominal + tolerance (R131). -/
def clampBand (b : BankCopy) (e : Nat) : Nat :=
  max (linkNominal b - linkTolerance b) (min (linkNominal b + linkTolerance b) e)

/-- The distance of two values. -/
def distance (x y : Nat) : Nat := (x - y) + (y - x)

/-- The interval is in band (R131). -/
def inBand (b : BankCopy) (i : Nat) : Bool := decide (distance i (linkNominal b) ≤ linkTolerance b)

/-- E updated by an interval (R131). -/
def nextEstimate (b : BankCopy) (e i : Nat) : Nat := if linkHysteresis b < distance i e then clampBand b i else e

/-- A MOTION arrival at the Link Monitor (R131, R132). -/
def LinkMonitor.arrival (b : BankCopy) (now : MsTime) (m : LinkMonitor) : LinkMonitor :=
  let i := m.gap now
  let restarted := { m with lastArrival := now, lapseTaken := false, lossTaken := false }
  match m.state with
  | .down => { restarted with state := .settling, estimate := linkNominal b, stable := 0 }
  | .settling =>
    let stable := if inBand b i then m.stable + 1 else 0
    { restarted with
      estimate := nextEstimate b m.estimate i, stable := stable
      state := if inBand b i && decide (linkStability b ≤ stable) then .up else .settling }
  | .up => { restarted with estimate := nextEstimate b m.estimate i }
  | .lapsed => { restarted with estimate := nextEstimate b m.estimate i, state := .up }

/-- The link goes to DOWN: the stable count is 0, the gap timer stops, E is kept (R133, R134). -/
def LinkMonitor.toDown (m : LinkMonitor) : LinkMonitor := { m with state := .down, stable := 0 }

/-- The lapse expiry comes: the gap exceeds the lapse threshold, the gap timer runs, and the expiry has not come in
this gap (R133). -/
def lapseDue (b : BankCopy) (now : MsTime) (m : LinkMonitor) : Bool :=
  decide (m.state = .settling ∨ m.state = .up) && !m.lapseTaken && decide (lapseThreshold b m < m.gap now)

/-- The loss expiry comes: the gap exceeds the loss timeout in SETTLING or LAPSED; in UP it does not arise (R133). -/
def lossDue (b : BankCopy) (now : MsTime) (m : LinkMonitor) : Bool :=
  decide (m.state = .settling ∨ m.state = .lapsed) && !m.lossTaken && decide (linkLossTimeout b < m.gap now)

/-- The Monitor and the sticky flags an event sets. -/
structure LinkEffect where
  link : LinkMonitor
  mask : Word
  deriving DecidableEq, Repr

/-- The lapse expiry (R133): from UP to LAPSED with LINK_LAPSED; in SETTLING the stable count returns to 0. An expiry
that is not due does not come. -/
def LinkMonitor.lapse (b : BankCopy) (now : MsTime) (m : LinkMonitor) : LinkEffect :=
  if lapseDue b now m then
    match m.state with
    | .up => { link := { m with state := .lapsed, lapseTaken := true }, mask := Flag.linkLapsed.mask }
    | _ => { link := { m with stable := 0, lapseTaken := true }, mask := 0#16 }
  else { link := m, mask := 0#16 }

/-- The loss expiry (R133): to DOWN with LINK_DOWN. An expiry that is not due does not come. -/
def LinkMonitor.loss (b : BankCopy) (now : MsTime) (m : LinkMonitor) : LinkEffect :=
  if lossDue b now m then { link := { m.toDown with lossTaken := true }, mask := Flag.linkDown.mask }
  else { link := m, mask := 0#16 }

/-- A line squelch event at the Link Monitor (R134). -/
def LinkMonitor.squelch (m : LinkMonitor) : LinkEffect :=
  if m.state = .down then { link := m, mask := 0#16 } else { link := m.toDown, mask := Flag.linkDown.mask }

/-- A commit at the Link Monitor (R135): E is clamped into the new band, and the expiries that the gap as it stands
gives under the new thresholds come, the lapse expiry first. -/
def LinkMonitor.commit (b : BankCopy) (now : MsTime) (m : LinkMonitor) : LinkEffect :=
  let lapsed := LinkMonitor.lapse b now { m with estimate := clampBand b m.estimate }
  let lost := lapsed.link.loss b now
  { link := lost.link, mask := lapsed.mask ||| lost.mask }

end Sys2Proof.Machine
end

