-- ==== Sys2Proof/Machine/Port.lean ====
section
/-! DEFINITION. The lamp bus port (chapter 6), as operations on `Port`. `b` is the ACTIVE bank, `d` the port's side,
`test` whether the beam mode is TEST. -/

namespace Sys2Proof.Machine

open Sys2Proof

/-! ### Transfer lists (R97) -/

/-- The chip record of an alias 1..4. -/
def Port.chip (p : Port) (chip : Nat) : Option ChipRecord := p.chips[chip - 1]?

/-- The alias is left out of a frame's list: its record is UNREACHABLE and the frame carries no probe (R97). -/
def skipsChip (chips : List ChipRecord) (number : Word) (chip : Nat) : Bool :=
  (chips[chip - 1]?).any (fun r => r.state = .unreachable) && number.toNat % Config.probeInterval != 0

/-- The item of an alias in a frame's list (R97). -/
def itemFor (b : BankCopy) (d : Side) (chips : List ChipRecord) (number : Word) (chip : Nat) : Option TransferItem :=
  match chipEntry b d chip with
  | some e =>
    if skipsChip chips number chip then none
    else some { chip := chip, address := e.address, first := e.first, count := e.count, last := false }
  | none => none

/-- Mark the last item (R97). -/
def markLast : List TransferItem → List TransferItem
  | [] => []
  | [it] => [{ it with last := true }]
  | it :: rest => it :: markLast rest

/-- The transfer list of a frame (R97): the map's entries of the side in alias order. -/
def transferList (b : BankCopy) (d : Side) (chips : List ChipRecord) (number : Word) : List TransferItem :=
  markLast ([1, 2, 3, 4].filterMap (itemFor b d chips number))

/-- The levels a SEGMENT WRITE of an item carries (R94, R96): those of the frame the item belongs to. -/
def itemLevels (f : OutputFrame) (it : TransferItem) : List Nat :=
  (List.range it.count).map (fun i => f.levels.getD (it.first + i) 0)

/-! ### Beginning and completing (R97 to R100) -/

/-- Begin an item with its first attempt (R95, R96). -/
def Port.beginItem (b : BankCopy) (it : TransferItem) (p : Port) : Port := { p with txn := .item it 1 (lampTimeout b) }

/-- Begin the next item of the in-flight frame, if one is left; an item of the remainder is taken out of it (R99, R106). -/
def Port.nextItem (b : BankCopy) (p : Port) : Option Port :=
  match p.inFlight with
  | none => none
  | some f =>
    match f.items[f.position]? with
    | none => none
    | some it =>
      some { (p.beginItem b it) with
        inFlight := some { f with position := f.position + 1 }, remainder := p.remainder.tail }

/-- The frame is complete: the derate condition is judged, and it ceases to be in flight (R99 step 1, R100). -/
def Port.complete (p : Port) : Port := { p with derate := p.derate && p.warningSeen, inFlight := none }

/-- A frame starts on a port with nothing in flight (R97, R98): its list is built, its warning seen is clear, and the
first item begins; a frame whose list is empty is complete at once (R99). -/
def Port.start (b : BankCopy) (d : Side) (f : OutputFrame) (p : Port) : Port :=
  match transferList b d p.chips f.number with
  | [] => { p.complete with state := .idle, warningSeen := false, derate := false }
  | it :: rest =>
    { p with
      state := .sending, txn := .item it 1 (lampTimeout b), warningSeen := false
      inFlight := some { frame := f, items := it :: rest, position := 1 } }

/-- A pending frame starts; with none the port becomes IDLE (R99 step 2). -/
def Port.takePending (b : BankCopy) (d : Side) (p : Port) : Port :=
  match p.pendingFrame with
  | some f => Port.start b d f { p with pendingFrame := none }
  | none => { p with state := .idle }

/-- A pass-through is performed (R102): FAILED without a transaction where the alias is now unused, and then the port
goes on as `after` says; otherwise its first attempt begins. -/
def Port.perform (b : BankCopy) (d : Side) (r : PassRequest) (after : Port → Port) (p : Port) : Port :=
  match chipEntry b d r.chip with
  | none => after { p with pass := .held r none }
  | some e =>
    { p with
      pass := .inProgress r, txn := .pass e.address 1 (passTimeout b)
      state := if p.state = .idle then .sending else p.state }

/-- A WAITING pass-through is performed at once; otherwise nothing changes (R99 steps 3 and 4, R101). -/
def Port.performWaiting (b : BankCopy) (d : Side) (p : Port) : Port :=
  match p.pass with
  | .waiting r => p.perform b d r id
  | _ => p

/-- The port goes on in SENDING with no frame in flight: a WAITING pass-through first, else a pending frame, else IDLE
(R99 step 2). -/
def Port.goOn (b : BankCopy) (d : Side) (p : Port) : Port :=
  match p.pass with
  | .waiting r => Port.perform b d r (Port.takePending b d) { p with state := .sending }
  | _ => Port.takePending b d { p with state := .sending }

/-- The port with no frame in flight and nothing on the bus, by its state (R99 steps 2 to 4). -/
def Port.settle (b : BankCopy) (d : Side) (test : Bool) (p : Port) : Port :=
  match p.state with
  | .sending => p.goOn b d
  | .halting =>
    if test then Port.performWaiting b d { p with state := .halted, pendingFrame := none } else p.goOn b d
  | _ => p.performWaiting b d

/-- The item in progress has ended, answered or skipped (R99, R105). -/
def Port.itemEnded (b : BankCopy) (d : Side) (test : Bool) (it : TransferItem) (p : Port) : Port :=
  let q : Port := { p with txn := .quiet }
  if q.state = .stopped then
    if it.last then Port.performWaiting b d { q.complete with remainder := [] } else q.performWaiting b d
  else if it.last then q.complete.settle b d test
  else match q.nextItem b with
    | some next => next
    | none => q.complete.settle b d test

/-- The pass-through in progress has ended (R99, R102): the slot holds the result. In SENDING and HALTING the port goes
on with the rest of a frame still in flight (R106), or as R99 states. -/
def Port.passEnded (b : BankCopy) (d : Side) (test : Bool) (result : Option Word) (p : Port) : Port :=
  let slot : PassSlot :=
    match p.pass with
    | .inProgress r => .held r result
    | other => other
  let q : Port := { p with txn := .quiet, pass := slot }
  if q.state = .sending ∨ q.state = .halting then
    match q.nextItem b with
    | some next => next
    | none => if q.inFlight.isSome then q.complete.settle b d test else q.settle b d test
  else q

/-! ### Answers and failures (R95, R96, R100, R102) -/

/-- Change the record of an alias, where its address is the item's (R96, R107). -/
def changeChip (chips : List ChipRecord) (it : TransferItem) (f : ChipRecord → ChipRecord) : List ChipRecord :=
  chips.modify (it.chip - 1) (fun r => if r.address = some it.address then f r else r)

/-- A record after an answered item (R96). -/
def ChipRecord.answered (a : SegmentAck) (r : ChipRecord) : ChipRecord :=
  { r with
    state := .online, failed := 0, warn := a.thermalWarn, stop := a.thermalStop, rxCrc := a.rxCrc, faults := a.faults }

/-- A record after a skipped item: UNREACHABLE when the count reaches 4 from 3 (R96). -/
def ChipRecord.skipped (r : ChipRecord) : ChipRecord :=
  { r with
    failed := min Config.failedLimit (r.failed + 1)
    state := if r.failed + 1 = Config.failedLimit then .unreachable else r.state }

/-- Skipping the item sets DRIVER_LOST: the record has the item's address and its count reaches 4 from 3 (R96). -/
def losesChip (chips : List ChipRecord) (it : TransferItem) : Bool :=
  (chips[it.chip - 1]?).any (fun r => r.address = some it.address && r.failed + 1 == Config.failedLimit)

/-- A port after an event on its bus, with the sticky flags the event sets. -/
structure PortEffect where
  port : Port
  mask : Word
  deriving DecidableEq, Repr

/-- The attempt in progress fails (R95): another attempt while one is permitted, else the item is skipped (R96) or the
pass-through has FAILED (R102). Without an attempt in progress nothing happens. -/
def Port.attemptFailed (b : BankCopy) (d : Side) (test : Bool) (p : Port) : PortEffect :=
  match p.txn with
  | .quiet => { port := p, mask := 0#16 }
  | .item it n _ =>
    if n < 1 + retryLimit b then
      { port := { p with txn := .item it (n + 1) (lampTimeout b) }, mask := 0#16 }
    else
      { port := Port.itemEnded b d test it { p with chips := changeChip p.chips it ChipRecord.skipped }
        mask := (Flag.driverLost d).maskIf (losesChip p.chips it) }
  | .pass a n _ =>
    if n < 1 + retryLimit b then
      { port := { p with txn := .pass a (n + 1) (passTimeout b) }, mask := 0#16 }
    else { port := p.passEnded b d test none, mask := 0#16 }

/-- An item is answered (R96, R100). -/
def Port.itemAnswered (b : BankCopy) (d : Side) (test : Bool) (it : TransferItem) (a : SegmentAck) (p : Port) : PortEffect :=
  { port := Port.itemEnded b d test it
      { p with
        chips := changeChip p.chips it (ChipRecord.answered a)
        derate := p.derate || a.thermalWarn, warningSeen := p.warningSeen || a.thermalWarn }
    mask := (Flag.thermalStop d).maskIf a.thermalStop }

/-- An ACK to a SEGMENT WRITE arrives (R95, R96): ignored where its attempt has been judged or none is in progress; it
answers an item's attempt whose address it carries, and fails any other attempt. -/
def Port.segmentAck (b : BankCopy) (test : Bool) (a : SegmentAck) (p : Port) : PortEffect :=
  if a.late then { port := p, mask := 0#16 }
  else match p.txn with
  | .item it _ _ => if a.address = it.address then p.itemAnswered b a.side test it a else p.attemptFailed b a.side test
  | _ => p.attemptFailed b a.side test

/-- An ACK to a register transaction arrives (R95, R102). -/
def Port.registerAck (b : BankCopy) (test : Bool) (a : RegisterAck) (p : Port) : PortEffect :=
  if a.late then { port := p, mask := 0#16 }
  else match p.txn with
  | .pass address _ _ =>
    if a.address = address then { port := p.passEnded b a.side test (some a.value), mask := 0#16 }
    else p.attemptFailed b a.side test
  | _ => p.attemptFailed b a.side test

/-- A NAK or a bad or misaddressed answer arrives (R95). -/
def Port.badAnswer (b : BankCopy) (test : Bool) (a : BadAnswer) (p : Port) : PortEffect :=
  if a.late then { port := p, mask := 0#16 } else p.attemptFailed b a.side test

/-! ### Frames arriving (R98) -/

/-- An output frame reaches the port (R98). -/
def Port.frameArrives (b : BankCopy) (f : OutputFrame) (p : Port) : PortEffect :=
  match p.state with
  | .idle => { port := p.start b f.side f, mask := 0#16 }
  | .sending => { port := { p with pendingFrame := some f }, mask := (Flag.frameSuperseded f.side).maskIf p.pendingFrame.isSome }
  | .halting => { port := { p with pendingFrame := some f }, mask := (Flag.frameSuperseded f.side).maskIf p.pendingFrame.isSome }
  | .halted => { port := p, mask := 0#16 }
  | .stopped => { port := p, mask := 0#16 }

/-! ### Pass-through requests (R101, R103) -/

/-- A QUEUED pass-through (R101): it waits, and is performed at once if the port is IDLE, HALTED or STOPPED with no
transaction in progress. -/
def Port.queuePass (b : BankCopy) (d : Side) (r : PassRequest) (p : Port) : Port :=
  let q : Port := { p with pass := .waiting r }
  if (p.state = .idle ∨ p.state = .halted ∨ p.state = .stopped) ∧ p.txn = .quiet then q.performWaiting b d else q

/-- The PASS_RESULT frame a slot offers (R103). -/
def PassSlot.offer (d : Side) : PassSlot → Option UpFrame
  | .held r result => some (.passResult d r.chip result)
  | _ => none

/-! ### Port control (R104 to R106) -/

/-- PORT HALT (R104). -/
def Port.halt (p : Port) : Port :=
  match p.state with
  | .idle => { p with state := .halted }
  | .sending => { p with state := .halting, pendingFrame := none }
  | _ => p

/-- What is left of the in-flight frame: the items not begun (R92, R105). -/
def Port.unbegun (p : Port) : List TransferItem :=
  match p.inFlight with
  | some f => f.items.drop f.position
  | none => []

/-- PORT STOP (R105): the rows of its table. With a pass-through on the bus the remainder is empty; a frame that a resume
left in flight beside it then has nothing left to deliver and is dropped without completion (DESIGN CHOICE, log entry
21). -/
def Port.stop (p : Port) : Port :=
  match p.state with
  | .stopped => p
  | .idle => { p with state := .stopped, remainder := [] }
  | .halted => { p with state := .stopped, remainder := [] }
  | _ =>
    match p.txn with
    | .pass _ _ _ => { p with state := .stopped, inFlight := none, remainder := [], pendingFrame := none }
    | _ => { p with state := .stopped, remainder := p.unbegun, pendingFrame := none }

/-- PORT RESUME (R106). -/
def Port.resume (b : BankCopy) (p : Port) : Port :=
  match p.state with
  | .halted => if p.txn = .quiet then { p with state := .idle } else { p with state := .sending }
  | .stopped =>
    if p.txn = .quiet then
      match Port.nextItem b { p with state := .sending } with
      | some next => next
      | none => { p with state := .idle }
    else { p with state := .sending }
  | _ => p

/-! ### Commits (R107) -/

/-- A chip record compared with the new driver map at a commit (R107). -/
def ChipRecord.remap (old new : BankCopy) (d : Side) (chip : Nat) (r : ChipRecord) : ChipRecord :=
  match chipEntry new d chip with
  | none => if r.state = .unused then r else .fresh none
  | some e => if r.address = some e.address ∧ (chipEntry old d chip).isSome then r else .fresh (some e.address)

/-- The chip records of a side at a commit (R107). -/
def remapChips (old new : BankCopy) (d : Side) (chips : List ChipRecord) : List ChipRecord :=
  chips.mapIdx (fun i r => r.remap old new d (i + 1))

/-- A port at a commit (R107): its chip records alone change. -/
def Port.commit (old new : BankCopy) (d : Side) (p : Port) : Port := { p with chips := remapChips old new d p.chips }

end Sys2Proof.Machine
end

