-- ==== Sys2Proof/Machine/Track.lean ====
section
/-! DEFINITION. The Track Table and the Scene Assembler (chapter 3), as operations on `TrackTable`. -/

namespace Sys2Proof.Machine

open Sys2Proof

/-! ### Slots -/

/-- A non-FREE entry holds an object id (R45). -/
def Track.holds (t : Track) (id : Nat) : Bool := t.state != .free && t.objectId == id

/-- The lowest slot that satisfies a test. -/
def firstSlot (p : Track → Bool) : List Track → Option Nat
  | [] => none
  | t :: ts => if p t then some 0 else (firstSlot p ts).map (· + 1)

/-- The slot of greatest key among the entries that have one, the lowest slot among equals; with its key. -/
def bestSlot (key : Track → Option Nat) : List Track → Option (Nat × Nat)
  | [] => none
  | t :: ts =>
    let later := (bestSlot key ts).map (fun x => (x.1 + 1, x.2))
    match key t, later with
    | none, l => l
    | some k, none => some (0, k)
    | some k, some (i, k') => if k' ≤ k then some (0, k) else some (i, k')

/-- A COASTING entry's key for eviction: its misses (R47). -/
def coastingKey (t : Track) : Option Nat := if t.state = .coasting then some t.misses else none

/-- A TENTATIVE entry's key for eviction: the lower its confidence, the greater (R47). -/
def tentativeKey (t : Track) : Option Nat := if t.state = .tentative then some (15 - t.confidence) else none

/-- The entry evicted: the COASTING entry with the most misses, else the TENTATIVE entry with the lowest confidence,
lowest slot first among equals; never a CONFIRMED entry (R47). -/
def evictSlot (ts : List Track) : Option Nat :=
  match bestSlot coastingKey ts with
  | some (i, _) => some i
  | none => (bestSlot tentativeKey ts).map Prod.fst

/-- The slot a new track takes: the lowest FREE one, else that of the entry evicted (R46, R47). -/
def slotForNew (ts : List Track) : Option Nat :=
  match firstSlot (fun t => t.state = .free) ts with
  | some i => some i
  | none => evictSlot ts

/-! ### Applying a report (section 3.4) -/

/-- An entry updated by a report (R45). -/
def Track.update (t : Track) (r : Report) (now : MsTime) : Track :=
  { t with
    cls := r.cls, left := r.left, right := r.right, bottom := r.bottom, top := r.top, rate := r.rate,
    distance := r.distance, confidence := r.confidence, captureAge := r.captureAge, arrival := now,
    hits := if t.seen then t.hits else min 15 (t.hits + 1), misses := 0, seen := true }

/-- The track a report creates (R46). -/
def Track.create (r : Report) (now : MsTime) : Track :=
  { state := .tentative, objectId := r.objectId, cls := r.cls, left := r.left, right := r.right, bottom := r.bottom,
    top := r.top, rate := r.rate, distance := r.distance, confidence := r.confidence, captureAge := r.captureAge,
    arrival := now, hits := 1, misses := 0, seen := true }

/-- What a report does (the cases of section 3.4). -/
inductive ReportCase where
  /-- update of the entry in a slot (R45) -/
  | update (slot : Nat)
  /-- creation in a slot, FREE or evicted (R46, R47) -/
  | create (slot : Nat)
  /-- no slot: dropped (R48) -/
  | drop
  /-- confidence too low: ignored (R49) -/
  | ignore
  deriving DecidableEq, Repr

/-- The case of a report (section 3.4). -/
def reportCase (b : BankCopy) (ts : List Track) (r : Report) : ReportCase :=
  match firstSlot (fun t => t.holds r.objectId) ts with
  | some i => .update i
  | none =>
    if r.confidence < createConfidence b r.cls then .ignore
    else match slotForNew ts with
      | some i => .create i
      | none => .drop

/-- The Track Table after a checked report, and the flags it sets (R45 to R49). -/
def applyReport (b : BankCopy) (now : MsTime) (t : TrackTable) (r : Report) : TrackTable × Word :=
  match reportCase b t.tracks r with
  | .update i => ({ t with tracks := t.tracks.modify i (fun e => e.update r now) }, 0#16)
  | .create i => ({ t with tracks := t.tracks.set i (Track.create r now) }, 0#16)
  | .drop => ({ t with crowdedHold := crowdedHoldLoad b }, Flag.sceneCrowded.mask)
  | .ignore => (t, 0#16)

/-- One report record: counted, checked, and applied or discarded (R44, R51, R52). -/
def takeReport (b : BankCopy) (now : MsTime) (t : TrackTable) (raw : SceneReport) : TrackTable × Word :=
  let counted := { t with reportCount := min 255 (t.reportCount + 1) }
  match reportOf raw with
  | none => (counted, Flag.frameError.mask)
  | some r => applyReport b now counted r

/-- The report records of a frame, in order (section 3.3), with the flags they set. -/
def takeReports (b : BankCopy) (now : MsTime) (t : TrackTable) : List SceneReport → TrackTable × Word
  | [] => (t, 0#16)
  | raw :: rest =>
    let (t1, m1) := takeReport b now t raw
    let (t2, m2) := takeReports b now t1 rest
    (t2, m1 ||| m2)

/-! ### Scene close (section 3.6) -/

/-- An entry at a scene close: a miss for an entry not seen (R55), confirmation for one seen (R56), and its seen flag
cleared (R53). -/
def Track.close (b : BankCopy) (t : Track) : Track :=
  if t.state = .free then t
  else if t.seen then
    let state :=
      match t.state with
      | .tentative => if confirmHits b t.cls ≤ t.hits then TrackState.confirmed else TrackState.tentative
      | .coasting => TrackState.confirmed
      | other => other
    { t with state := state, seen := false }
  else
    let misses := min 15 (t.misses + 1)
    match t.state with
    | .tentative => Track.freeEntry
    | .coasting => if coastLimit b t.cls < misses then Track.freeEntry else { t with misses := misses }
    | _ => { t with state := .coasting, misses := misses }

/-- A scene closes at the arrival of a frame (R53). -/
def TrackTable.close (b : BankCopy) (now : MsTime) (t : TrackTable) : TrackTable :=
  { t with tracks := t.tracks.map (Track.close b), isOpen := false, lastScene := some now }

/-! ### Scene assembly (section 3.5) -/

/-- What a SCENE frame does to the table: the flags it sets, and whether a scene closed. -/
structure SceneEffect where
  table : TrackTable
  mask : Word
  closed : Bool
  deriving DecidableEq, Repr

/-- A scene opens with the frame's id (R51). -/
def TrackTable.openScene (t : TrackTable) (id : Nat) : TrackTable :=
  { t with isOpen := true, sceneId := id, reportCount := 0 }

/-- An accepted SCENE frame (R51 to R54): an open scene of another id is first closed with SCENE_TRUNCATED; a scene is
opened unless the frame continues one; the reports are taken; END closes the scene. -/
def takeScene (b : BankCopy) (now : MsTime) (p : ScenePayload) (t : TrackTable) : SceneEffect :=
  let truncates := t.isOpen && t.sceneId != p.sceneId.toNat
  let t1 := if truncates then t.close b now else t
  let t2 := if t1.isOpen then t1 else t1.openScene p.sceneId.toNat
  let (t3, m) := takeReports b now t2 p.reports
  { table := if p.endMark then t3.close b now else t3
    mask := Flag.sceneTruncated.maskIf truncates ||| m
    closed := truncates || p.endMark }

/-- SCENE CLEAR (R60): every entry FREE, no scene open, the crowded hold counter 0; the last scene time is kept. -/
def TrackTable.clear (t : TrackTable) : TrackTable := { TrackTable.empty with lastScene := t.lastScene }

/-- The crowded hold counter's decrement at an output frame event (R50). -/
def TrackTable.frame (t : TrackTable) : TrackTable := { t with crowdedHold := t.crowdedHold - 1 }

/-- The entries in a state (R59). -/
def TrackTable.countIn (t : TrackTable) (s : TrackState) : Nat := (t.tracks.filter (fun e => e.state = s)).length

end Sys2Proof.Machine
end

