-- ==== Sys2Proof/Machine/Status.lean ====
section
/-! DEFINITION. STATUS frames, the upstream queue and its claims (R77, R109, R129, R161, R162), and the bytes of the
upstream frames (R125, R129). -/

namespace Sys2Proof.Machine

open Sys2Proof

/-! ### The effective light function (R115) -/

/-- The effective light function (R115). -/
def effectiveFn (mode : BeamMode) (requested : LightFn) (sceneStale : Bool) : LightFn :=
  match requested with
  | .adaptive => if mode = .hold ∨ sceneStale = true then .low else .adaptive
  | other => other

/-- The effective light function as it stands (R115). -/
def State.effective (s : State) : LightFn := effectiveFn s.sup.mode s.motion.requested s.sup.sceneStale

/-! ### STATUS (R129, R162) -/

/-- A STATUS frame formed now: every field as it stands (R129). -/
def State.statusReport (s : State) (origin : StatusOrigin) : StatusReport :=
  { origin := origin
    mode := s.sup.mode
    link := s.link.state
    estimate := s.link.estimate
    function := s.effective
    theta := s.bend.theta
    tentative := s.table.countIn .tentative
    confirmed := s.table.countIn .confirmed
    coasting := s.table.countIn .coasting
    sceneOpen := s.table.isOpen
    sceneId := s.table.sceneId
    reportCount := s.table.reportCount
    crowdedHold := s.table.crowdedHold
    windows := Sided.of fun d => windowCounts (s.windows.get d)
    portStates := Sided.of fun d => (s.ports.get d).state
    chips := Sided.of fun d => (s.ports.get d).chips
    sticky := s.mgmt.sticky
    sceneStale := s.sup.sceneStale
    streamStale := s.composer.streamStale
    bendInputLost := s.bend.inputLost
    syncLost := s.time.syncLost
    derate := Sided.of fun d => (s.ports.get d).derate
    outcome := s.bank.outcome
    commitCount := s.bank.commitCount
    errorCount := s.rx.errorCount
    frameCounter := s.time.frameCounter }

/-! ### The upstream queue (R158, R161) -/

/-- A slot is reserved for the REPLY of the MANAGE frame being executed (R158). -/
def Management.reserved (m : Management) : Nat :=
  match m.manage with
  | some f => if f.discarded then 0 else 1
  | none => 0

/-- A slot of the queue is free: neither occupied nor reserved (R161). -/
def Management.hasRoom (m : Management) : Bool := decide (m.queue.length + m.reserved < Config.queueDepth)

/-- A frame enters the queue at its end (R161). -/
def Management.push (m : Management) (f : UpFrame) : Management := { m with queue := m.queue ++ [f] }

/-- The claim of a side's held pass-through result: its PASS_RESULT enters if a slot is free, and the pass-through slot
becomes EMPTY (R103, R161). -/
def State.admitPass (s : State) (d : Side) : State :=
  match (s.ports.get d).pass.offer d with
  | some f =>
    if s.mgmt.hasRoom then
      { s with mgmt := s.mgmt.push f, ports := s.ports.set d { s.ports.get d with pass := .empty } }
    else s
  | none => s

/-- The STATUS NOW claim: a STATUS formed at its entry, if a slot is free (R161, R162). -/
def State.admitStatusNow (s : State) : State :=
  if s.mgmt.statusClaim && s.mgmt.hasRoom then
    { s with mgmt := { s.mgmt.push (.status (s.statusReport .statusNow)) with statusClaim := false } }
  else s

/-- The report-now claim (R161, R162). -/
def State.admitReportNow (s : State) : State :=
  if s.mgmt.reportClaim && s.mgmt.hasRoom then
    { s with mgmt := { s.mgmt.push (.status (s.statusReport .reportNow)) with reportClaim := false } }
  else s

/-- Free slots are given to the waiting claims in the arbiter's order: PASS_RESULT LEFT, PASS_RESULT RIGHT, STATUS NOW,
report-now (R161). -/
def State.admitClaims (s : State) : State :=
  (((s.admitPass .left).admitPass .right).admitStatusNow).admitReportNow

/-- The periodic STATUS: it enters if due and a slot is free, and is skipped otherwise (R162). -/
def State.periodicStatus (s : State) : State :=
  if statusPeriod s.bank.active ≠ 0 ∧ s.time.frameCounter.toNat % statusPeriod s.bank.active = 0
      ∧ s.mgmt.hasRoom = true then
    { s with mgmt := s.mgmt.push (.status (s.statusReport .periodic)) }
  else s

/-! ### The bytes of the upstream frames (R125, R129) -/

/-- A 16-bit field of an unsigned value. -/
def natWordBytes (n : Nat) : List Byte := wordBytes (BitVec.ofNat 16 n)

/-- A 16-bit field of a signed value, two's complement. -/
def intWordBytes (i : Int) : List Byte := wordBytes (BitVec.ofInt 16 i)

/-- A one-byte field. -/
def natByte (n : Nat) : Byte := BitVec.ofNat 8 n

/-- A flag as 0 or 1. -/
def boolNat (c : Bool) : Nat := if c then 1 else 0

/-- The codes of R129. -/
def StatusOrigin.code : StatusOrigin → Nat
  | .periodic => 0
  | .reportNow => 1
  | .statusNow => 2
def BeamMode.code : BeamMode → Nat
  | .dark => 0
  | .fallback => 1
  | .normal => 2
  | .hold => 3
  | .test => 4
def LinkState.code : LinkState → Nat
  | .down => 0
  | .settling => 1
  | .up => 2
  | .lapsed => 3
def LightFn.code : LightFn → Nat
  | .off => 0
  | .low => 1
  | .adaptive => 2
def PortState.code : PortState → Nat
  | .idle => 0
  | .sending => 1
  | .halting => 2
  | .halted => 3
  | .stopped => 4
def ChipState.code : ChipState → Nat
  | .unused => 0
  | .online => 1
  | .unreachable => 2
def ResultCode.code : ResultCode → Nat
  | .ok => 0
  | .pending => 1
  | .queued => 2
  | .badCommand => 3
  | .badTable => 4
  | .badRange => 5
  | .moving => 6
  | .linkNotUp => 7
  | .notInTest => 8
  | .unknownAlias => 9
  | .busy => 10
  | .wrongSync => 11
  | .notRun => 12

/-- The four bytes of a fault map, most significant first. -/
def faultBytes (f : BitVec 32) : List Byte :=
  [f.extractLsb' 24 8, f.extractLsb' 16 8, f.extractLsb' 8 8, f.extractLsb' 0 8]

/-- The seven bytes of a chip record in a STATUS payload (R129). R129 assigns the bits 0 to 2 of the last-status byte and
says nothing of the bits 3 to 7: the model sends these as 0 (DESIGN CHOICE, unsafe, log entry 30). -/
def chipBytes (r : ChipRecord) : List Byte :=
  [natByte r.state.code, natByte r.failed, natByte (boolNat r.warn + 2 * boolNat r.stop + 4 * boolNat r.rxCrc)]
    ++ faultBytes r.faults

/-- The four bytes of one side's window counts. -/
def windowCountBytes (w : WindowCounts) : List Byte :=
  [natByte w.oncoming, natByte w.preceding, natByte w.twoWheeler, natByte w.reflector]

/-- The four bytes of the last commit outcome. -/
def outcomeBytes : CommitOutcome → List Byte
  | .noOutcome => [natByte 0, natByte 0] ++ natWordBytes 0
  | .applied => [natByte 1, natByte 0] ++ natWordBytes 0
  | .rejected t o => [natByte 2, natByte t] ++ natWordBytes o
  | .cancelled => [natByte 3, natByte 0] ++ natWordBytes 0

/-- The conditions byte of a STATUS payload (R129). R129 assigns the bits 0 to 5 and says nothing of the bits 6 and 7: the
model sends these as 0 (DESIGN CHOICE, unsafe, log entry 30). -/
def conditionByte (r : StatusReport) : Byte :=
  natByte (boolNat r.sceneStale + 2 * boolNat r.streamStale + 4 * boolNat r.bendInputLost + 8 * boolNat r.syncLost
    + 16 * boolNat r.derate.left + 32 * boolNat r.derate.right)

/-- The payload of a STATUS frame (R129). R129 names the open-scene flag and gives no code for set and clear: the model sends 1
for set and 0 for clear (DESIGN CHOICE, unsafe, log entry 28). -/
def statusBytes (r : StatusReport) : List Byte :=
  [natByte r.origin.code, natByte r.mode.code, natByte r.link.code] ++ natWordBytes r.estimate
    ++ [natByte r.function.code] ++ intWordBytes r.theta.left ++ intWordBytes r.theta.right
    ++ [natByte r.tentative, natByte r.confirmed, natByte r.coasting]
    ++ [natByte (boolNat r.sceneOpen), natByte r.sceneId, natByte r.reportCount]
    ++ natWordBytes r.crowdedHold
    ++ windowCountBytes r.windows.left ++ windowCountBytes r.windows.right
    ++ (natByte r.portStates.left.code :: r.chips.left.flatMap chipBytes)
    ++ (natByte r.portStates.right.code :: r.chips.right.flatMap chipBytes)
    ++ wordBytes r.sticky ++ [conditionByte r] ++ outcomeBytes r.outcome ++ wordBytes r.commitCount
    ++ natWordBytes r.errorCount ++ wordBytes r.frameCounter

/-- A result record of a REPLY payload (R129). -/
def resultBytes (r : CommandResult) : List Byte :=
  [r.command, natByte r.code.code, natByte r.data.length] ++ r.data

/-- The payload of a REPLY frame (R129). -/
def replyBytes (tag : Byte) (rs : List CommandResult) : List Byte :=
  tag :: natByte rs.length :: rs.flatMap resultBytes

/-- The payload of a PASS_RESULT frame (R129): the value is 0 for FAILED. -/
def passResultBytes (d : Side) (chip : Nat) (result : Option Word) : List Byte :=
  [natByte (sideCode d), natByte chip, natByte (if result.isSome then 0 else 1)] ++ wordBytes (result.getD 0#16)

/-- An upstream frame from header to CRC, as the back channel sends it between START and END (R125, R129). -/
def UpFrame.bytes : UpFrame → List Byte
  | .status r => frameBytes classStatus (statusBytes r)
  | .reply tag rs => frameBytes classReply (replyBytes tag rs)
  | .passResult d chip result => frameBytes classPassResult (passResultBytes d chip result)

end Sys2Proof.Machine
end

