-- ==== Sys2Proof/Machine/Supervisor.lean ====
section
/-! DEFINITION. The Beam Supervisor's decisions (R111, R112, R114, R116 to R119). -/

namespace Sys2Proof.Machine

open Sys2Proof

/-- The beam mode of a link state, test state and LOWREQ level (R111). -/
def modeFor (link : LinkState) (testActive lowreq : Bool) : BeamMode :=
  match link with
  | .up => if testActive then .test else .normal
  | .lapsed => .hold
  | _ => if lowreq then .fallback else .dark

/-- A mode in which the bend is held at 0 (R38, R112). -/
def BeamMode.unbent : BeamMode → Bool
  | .fallback => true
  | .dark => true
  | .test => true
  | _ => false

/-- The test program state's reset values (R119). -/
def Supervisor.clearTest (u : Supervisor) : Supervisor :=
  { u with testActive := false, program := none, current := none, walk := 0, dwell := 0 }

/-- A mode change acts on the other blocks at once (R112): on entry to FALLBACK, DARK or TEST the bend is set to 0; on
leaving TEST both ports resume and the test program state takes its reset values. The mode already held is no change. -/
def State.enterMode (s : State) (mode : BeamMode) : State :=
  let changed := decide (mode ≠ s.sup.mode)
  let leavesTest := changed && decide (s.sup.mode = .test)
  { s with
    sup := { (if leavesTest then s.sup.clearTest else s.sup) with mode := mode }
    bend := if changed && mode.unbent then s.bend.straight else s.bend
    ports := if leavesTest then Sided.of (fun d => (s.ports.get d).resume s.bank.active) else s.ports }

/-- The Supervisor decides the mode again (R111). In LAPSED, DOWN and SETTLING an active test first ends, with
TEST_ENDED (R117). -/
def State.decideMode (s : State) : State :=
  let ends := s.sup.testActive && decide (s.link.state ≠ .up)
  let s1 := s.raise (Flag.testEnded.maskIf ends)
  let s2 := { s1 with sup := { s1.sup with testActive := s1.sup.testActive && !ends } }
  s2.enterMode (modeFor s2.link.state s2.sup.testActive s2.sup.lowreqLevel)

/-- The Link Monitor after an event and the flags it sets; a change of link state makes the Supervisor decide the mode
again (R111, R132 to R134). -/
def State.withLink (s : State) (e : LinkEffect) : State :=
  let s1 := ({ s with link := e.link } : State).raise e.mask
  if e.link.state = s.link.state then s1 else s1.decideMode

/-- A test ends by TEST EXIT or at a MOTION arrival (R117); `flagged` sets TEST_ENDED. -/
def State.endTest (s : State) (flagged : Bool) : State :=
  let s1 := s.raise (Flag.testEnded.maskIf flagged)
  ({ s1 with sup := { s1.sup with testActive := false } } : State).decideMode

/-- The speed forbids a test: invalid, or not below the test speed limit (R116, R118). -/
def tooFast (b : BankCopy) (m : Motion) : Bool := !m.speedValid || decide (testSpeedLimit b ≤ m.speed)

/-- The check of R118 at a MOTION arrival. -/
def State.testSpeedCheck (s : State) : State :=
  if s.sup.mode = .test ∧ tooFast s.bank.active s.motion = true then s.endTest true else s

/-- A test starts (R116, R121): the program is stored, the first enabled pattern is current, and the mode is TEST. -/
def State.startTest (s : State) (p : TestProgram) : State :=
  ({ s with
      sup := { s.sup with testActive := true, program := some p, current := p.enabled.head?, walk := 0, dwell := 0 } } :
    State).decideMode

/-- SCENE_STALE at an output frame event (R114). -/
def sceneStaleAt (b : BankCopy) (now : MsTime) (lastScene : Option MsTime) (held : Bool) : Bool :=
  held || (match lastScene with
    | none => true
    | some t => decide (staleTimeout b < msSince now t))

end Sys2Proof.Machine
end

