-- ==== Sys2Proof/Machine/Timebase.lean ====
section
/-! DEFINITION. The Frame Timebase (chapter 9): ticks, the frame timer, edges and the strobe. -/

namespace Sys2Proof.Machine

open Sys2Proof

/-! ### Ticks (R136 to R138) -/

/-- Ticks of 1 µs pass: the frame timer counts down and finds its count at 0 at the tick after it reached 0 (R138); the
time since the last event, the pulse (R144) and the ms prescaler (R145) run on. -/
def Timebase.elapse (n : Nat) (t : Timebase) : Timebase :=
  { t with
    count := t.count - n
    expiryDue := t.expiryDue || decide (t.count < n)
    sinceEvent := t.sinceEvent + n
    strobeLeft := t.strobeLeft - n
    msTicks := t.msTicks + n }

/-- Ticks of 1 µs pass in the whole part: in the Timebase, and in the qualification of a LOWREQ level (R113). -/
def State.elapse (n : Nat) (s : State) : State :=
  { s with
    time := s.time.elapse n
    sup := { s.sup with lowreqHeld := s.sup.lowreqHeld.map (· + n) } }

/-- The ticks until the frame timer's expiry is taken: until the tick that finds the count at 0, and not before 2000 µs
after the last output frame event (R138). -/
def Timebase.ticksToExpiry (t : Timebase) : Nat :=
  max (if t.expiryDue then 0 else t.count + 1) (Config.guardTicks - t.sinceEvent)

/-- The frame timer's expiry is due: a tick has found the count at 0 and the guard allows it (R138). -/
def Timebase.expiryReady (t : Timebase) : Bool := t.expiryDue && decide (Config.guardTicks ≤ t.sinceEvent)

/-- The count is loaded (R138, R140, R141). -/
def Timebase.load (t : Timebase) (count : Nat) : Timebase := { t with count := count, expiryDue := false }

/-! ### The FSYNC line (R137, R144) -/

/-- The level at which the part drives FSYNC; none where it leaves the line undriven or an input (R137, R144). -/
def Timebase.fsyncLevel (t : Timebase) : Option LineLevel :=
  if t.fsyncDriven then some (if t.strobeActive then t.strobeIdle.opposite else t.strobeIdle) else none

/-- The pulse ends and the line returns to its idle level (R144). -/
def Timebase.endStrobe (t : Timebase) : Timebase := { t with strobeActive := false, strobeLeft := 0 }

/-- The strobe an output frame event begins under INTERNAL sync, with the width and idle level of the table given; a
width above the preload is clamped to it and a width of 0 forms no pulse (R139, R144). -/
def Timebase.beginStrobe (b : BankCopy) (t : Timebase) : Timebase :=
  let width := min (strobeWidth b) (preload b)
  { t with strobeActive := decide (0 < width), strobeLeft := width, strobeIdle := strobeIdleLevel b }

/-! ### Output frame events (R138, R141, R142, R146) -/

/-- What produced an output frame event. -/
inductive FrameCause where
  /-- an expiry of the frame timer under INTERNAL sync (R138) -/
  | internalExpiry
  /-- an expiry of the frame timer under EXTERNAL sync (R142) -/
  | flywheel
  /-- an accepted edge (R141) -/
  | acceptedEdge
  deriving DecidableEq, Repr

/-- The Timebase at an output frame event (R138, R139, R141, R142, R146): reload with the preload as it stood before a
commit applied at the event, a new period, the frame counter's increment, and the flywheel. -/
def Timebase.frame (old : BankCopy) (cause : FrameCause) (t : Timebase) : Timebase :=
  let flywheel :=
    match cause with
    | .internalExpiry => t.flywheel
    | .flywheel => min 8 (t.flywheel + 1)
    | .acceptedEdge => 0
  { t with
    count := preload old
    expiryDue := false
    sinceEvent := 0
    flywheel := flywheel
    syncLost := match cause with
      | .internalExpiry => t.syncLost
      | .flywheel => t.syncLost || decide (8 ≤ flywheel)
      | .acceptedEdge => false
    frameCounter := t.frameCounter + 1#16 }

/-- The line and the flywheel at an output frame event, from the tables before and after a commit applied at it (R139,
R143, R144). Under INTERNAL sync the event begins a strobe with the old width and idle level; a change to EXTERNAL
forms none, stops driving the line and starts the flywheel from 0; a change to INTERNAL drives the line at the new idle
level and clears the flywheel. -/
def Timebase.syncFrame (old new : BankCopy) (t : Timebase) : Timebase :=
  match syncExternal old, syncExternal new with
  | false, false => t.beginStrobe old
  | true, true => t
  | false, true => { t.endStrobe with fsyncDriven := false, flywheel := 0, syncLost := false }
  | true, false =>
    { t.endStrobe with fsyncDriven := true, strobeIdle := strobeIdleLevel new, flywheel := 0, syncLost := false }

end Sys2Proof.Machine
end

