-- ==== Sys2Proof/Machine/Transition.lean ====
section
/-! DEFINITION. The Transition Stage (chapter 5). -/

namespace Sys2Proof.Machine

open Sys2Proof

/-- The first part of a step: the hold after comparing the frame's shadowed flag with the record's last flag (R82). -/
def holdAfterFlag (b : BankCopy) (lastFlag flag : Bool) (hold : Nat) : Nat :=
  if lastFlag && !flag then releaseHold b
  else if flag then 0
  else hold

/-- The rise step of a mode (R84). -/
def riseOf (b : BankCopy) (mode : BeamMode) : Nat := if mode = .fallback then fallbackRiseStep b else riseStep b

/-- The second part of a step: level and hold against the target (R83). -/
def moveLevel (fall rise target level hold : Nat) : Nat × Nat :=
  if target < level then (max target (level - fall), hold)
  else if level < target then
    if 0 < hold then (level, hold - 1) else (min target (level + rise), 0)
  else (level, hold)

/-- The step of one segment (R82 to R85). -/
def SegmentRecord.step (b : BankCopy) (mode : BeamMode) (target : Nat) (flag : Bool) (s : SegmentRecord) : SegmentRecord :=
  if mode = .test then { level := target, hold := 0, lastFlag := flag }
  else
    let (level, hold) := moveLevel (fallStep b) (riseOf b mode) target s.level (holdAfterFlag b s.lastFlag flag s.hold)
    { level := level, hold := hold, lastFlag := flag }

/-- The step of records against targets and flags, position by position (R81). -/
def stepRecords (b : BankCopy) (mode : BeamMode) : List SegmentRecord → List Nat → List Bool → List SegmentRecord
  | s :: ss, t :: ts, f :: fs => s.step b mode t f :: stepRecords b mode ss ts fs
  | _, _, _ => []

/-- The records of a side after its step (R81). -/
def stepSide (x : CompositionInputs) (t : TargetFrame) (ss : List SegmentRecord) : List SegmentRecord :=
  stepRecords x.active x.mode ss t.levels t.shadowed

/-- The output frame of a side (R90). -/
def outputFrame (x : CompositionInputs) (d : Side) (ss : List SegmentRecord) : OutputFrame :=
  { side := d, levels := ss.map SegmentRecord.level, number := x.number }

end Sys2Proof.Machine
end

