-- ==== Sys2Proof/Machine/FrameEvent.lean ====
section
/-! DEFINITION. Composition complete, and the output frame event with all the work the blocks have at it (R3, R138,
R154, R155, R162). -/

namespace Sys2Proof.Machine

open Sys2Proof

/-! ### Composition complete (R18, R81, R90, R98) -/

/-- The records of a side at composition complete (R81). -/
def State.steppedSide (s : State) (x : CompositionInputs) (d : Side) : List SegmentRecord :=
  stepSide x (targetFrame x d) (s.segments.get d)

/-- A side's port when the side's output frame reaches it (R90, R98). -/
def State.frameToPort (s : State) (x : CompositionInputs) (d : Side) : PortEffect :=
  (s.ports.get d).frameArrives s.bank.active (outputFrame x d (s.steppedSide x d))

/-- Composition completes (R18): each side's target frame goes to its Transition Stage, and the output frame it forms
to its port. With no composition in progress nothing happens. -/
def State.completeComposition (s : State) : State :=
  match s.composer.inFlight with
  | none => s
  | some x =>
    ({ s with
        composer := { s.composer with inFlight := none, targets := Sided.of (targetFrame x) }
        segments := Sided.of (s.steppedSide x)
        ports := Sided.of (fun d => (s.frameToPort x d).port) } :
      State).raise ((s.frameToPort x .left).mask ||| (s.frameToPort x .right).mask)

/-! ### Commits at the event (R154, R155) -/

/-- The bank at an output frame event at which a commit is pending (R155). -/
def TableBank.decide (k : TableBank) : TableBank :=
  match bankFault k.staged with
  | none =>
    { k with active := k.staged, commitPending := false, outcome := .applied, commitCount := k.commitCount + 1#16 }
  | some (id, off) => { k with commitPending := false, outcome := .rejected id off }

/-- STAGED passes validation (R154). -/
def TableBank.passes (k : TableBank) : Bool := (bankFault k.staged).isNone

/-- A pending commit at an output frame event (R155): applied, with the blocks' acts at the commit (R37, R107, R135), or
rejected with COMMIT_REJECTED. -/
def State.commitAtEvent (s : State) : State :=
  if s.bank.commitPending then
    let bank := s.bank.decide
    if s.bank.passes then
      ({ s with
          bank := bank
          bend := s.bend.commitClamp bank.active
          ports := Sided.of (fun d => (s.ports.get d).commit s.bank.active bank.active d) } :
        State).withLink (s.link.commit bank.active s.time.msClock)
    else ({ s with bank := bank } : State).raise Flag.commitRejected.mask
  else s

/-! ### The blocks' decisions at the event (R3, R9, R28, R50, R63, R114, R120, R121) -/

/-- SCENE_STALE as the event decides it (R114). -/
def State.staleAtEvent (s : State) : Bool :=
  sceneStaleAt s.bank.active s.time.msClock s.table.lastScene s.sup.sceneStale

/-- The effective function as composition takes it, after the decision about SCENE_STALE (R115). -/
def State.functionAtEvent (s : State) : LightFn := effectiveFn s.sup.mode s.motion.requested s.staleAtEvent

/-- The test patterns of the frame (R120); all 0 outside TEST. -/
def State.testAtEvent (s : State) : Sided (List Nat) :=
  if s.sup.mode = .test then Sided.of (testPatternOf s.bank.active s.sup)
  else .both (List.replicate Config.positions 0)

/-- The inputs composition takes at the event (R3). -/
def State.inputsAtEvent (s : State) : CompositionInputs :=
  { active := s.bank.active
    mode := s.sup.mode
    function := s.functionAtEvent
    lowIndex := s.motion.lowIndex
    adaptiveIndex := s.motion.adaptiveIndex
    source := s.motion.source
    shift := (s.bend.frame s.bank.active s.sup.mode s.motion).shift
    windows := windowsAt s.bank.active s.time.msClock s.sup.mode s.functionAtEvent s.table.tracks
    crowded := s.table.crowdedHold
    derate := Sided.of (fun d => (s.ports.get d).derate)
    streams := s.composer.streams
    test := s.testAtEvent
    number := s.time.frameCounter }

/-- The decisions of the blocks at an output frame event, and the start of composition (R3, R6, R9, R28, R50, R63, R114,
R121). -/
def State.frameDecisions (s : State) : State :=
  { s with
    sup := { (if s.sup.mode = .test then s.sup.advance s.bank.active else s.sup) with sceneStale := s.staleAtEvent }
    bend := s.bend.frame s.bank.active s.sup.mode s.motion
    windows := windowsAt s.bank.active s.time.msClock s.sup.mode s.functionAtEvent s.table.tracks
    table := s.table.frame
    composer :=
      { s.composer with
        streams := Sided.of (fun d => (s.composer.streams.get d).older)
        streamStale :=
          streamStaleAt s.bank.active s.sup.mode s.functionAtEvent s.motion.source s.composer.streams
        inFlight := some s.inputsAtEvent } }

/-! ### The whole event -/

/-- The STATUS frames of the event: the report-now claim before the periodic STATUS (R162). -/
def State.statusAtEvent (s : State) (requested : Bool) : State :=
  (({ s with mgmt := { s.mgmt with reportClaim := s.mgmt.reportClaim || requested } } : State).admitClaims).periodicStatus

/-- The Timebase's part of the event, and the report request as it stood when the event began, cleared (R138, R162). -/
def State.beginEvent (s : State) (cause : FrameCause) : State :=
  { s with time := s.time.frame s.bank.active cause, mgmt := { s.mgmt with reportRequest := false } }

/-- An output frame event (R138): the Timebase, the pending commit, SYNC_MISSING of a flywheel event (R142), the strobe
(R139, R143), the blocks' decisions with the start of composition, and the STATUS frames. A composition still in
progress is completed first (R4). -/
def State.outputFrameEvent (s : State) (cause : FrameCause) : State :=
  let s0 := s.completeComposition
  let s1 := (s0.beginEvent cause).commitAtEvent
  let s2 := s1.raise (Flag.syncMissing.maskIf (cause == .flywheel))
  let s3 : State := { s2 with time := s2.time.syncFrame s0.bank.active s2.bank.active }
  s3.frameDecisions.statusAtEvent s0.mgmt.reportRequest

/-- What an expiry of the frame timer is (R138, R142). -/
def expiryCause (b : BankCopy) : FrameCause := if syncExternal b then .flywheel else .internalExpiry

/-- The frame timer expires (R138, R142): the ticks until the expiry pass, and the event is taken. -/
def State.timerExpiry (s : State) : State :=
  (s.elapse s.time.ticksToExpiry).outputFrameEvent (expiryCause s.bank.active)

/-- An edge on FSYNC (R141): under EXTERNAL sync, one in the direction of the sync edge is accepted as an output frame
event at least 2000 µs after the last one, and is early otherwise; any other edge is not taken. -/
def State.syncEdgeArrives (s : State) (edge : SyncEdge) : State :=
  if syncExternal s.bank.active = true ∧ edge = syncEdge s.bank.active then
    if Config.guardTicks ≤ s.time.sinceEvent then s.outputFrameEvent .acceptedEdge
    else s.raise Flag.syncEarly.mask
  else s

end Sys2Proof.Machine
end

