-- ==== Sys2Proof/Machine/Reset.lean ====
section
/-! DEFINITION. Cold reset, the end of a reset, and warm reset (00_scope.md section 7, and the reset columns of every
chapter). -/

namespace Sys2Proof.Machine

open Sys2Proof

/-- Every block at its reset values under an ACTIVE bank; the bank, the LOWREQ line and the queue of commands are given
(R22, R24, R27, R61, R79, R80, R93, R108, R110, R130, R137, R147, R157). -/
def resetUnder (bank : TableBank) (line : Bool) (waiting : List Instr) : State :=
  { State.reset with
    link := { State.reset.link with estimate := linkNominal bank.active }
    ports := Sided.of (fun d => Port.atReset (freshChips bank.active d))
    sup := { State.reset.sup with lowreqLine := line, lowreqLevel := line, mode := modeFor .down false line }
    time :=
      { State.reset.time with
        count := preload bank.active, strobeIdle := strobeIdleLevel bank.active
        fsyncDriven := !syncExternal bank.active }
    bank := bank
    pending := waiting }

/-- The bank after a cold reset: both copies at their defaults (R147). -/
def TableBank.cold : TableBank := State.reset.bank

/-- The bank after a warm reset: both copies and the commit count kept (R147). -/
def TableBank.warm (k : TableBank) : TableBank := { k with commitPending := false, outcome := .noOutcome }

/-- Cold reset (R137): every block at its cold-reset values, and RESET asserted: FSYNC is not driven, and the LOWREQ
level and the beam mode are taken when the reset ends (R110). -/
def State.coldReset (s : State) : State :=
  let r := resetUnder TableBank.cold s.sup.lowreqLine s.pending
  { r with
    inReset := true
    sup := { r.sup with lowreqLevel := false, mode := .dark }
    time := { r.time with fsyncDriven := false } }

/-- The reset ends (R110, R137): the LOWREQ level is taken from the line, the mode follows it, FSYNC is driven at the
strobe idle level under INTERNAL sync and left an input under EXTERNAL. -/
def State.endReset (s : State) : State :=
  { s with
    inReset := false
    sup := { s.sup with lowreqLevel := s.sup.lowreqLine, lowreqHeld := none, mode := modeFor .down false s.sup.lowreqLine }
    time :=
      { s.time with fsyncDriven := !syncExternal s.bank.active, strobeIdle := strobeIdleLevel s.bank.active } }

/-- Warm reset (R164): every block at its warm-reset values, the bank keeping both copies. -/
def State.warmResetNow (s : State) : State := resetUnder s.bank.warm s.sup.lowreqLine s.pending

/-- While RESET is asserted the part is held at its reset values (00_scope.md section 8): an event then has no effect. -/
def State.running (s : State) (f : State → State) : State := if s.inReset then s else f s

end Sys2Proof.Machine
end

