-- ==== Sys2Proof/Machine/LinkCommands.lean ====
section
/-! DEFINITION. The rows of the resets and lines, and of the downstream link: COLD_RESET, RESET_ENDS, LOWREQ_EDGE,
LOWREQ_LEVEL_CHANGE, LINE_SQUELCH, LINK_FRAME_ERROR, START_SYMBOL, MOTION_FRAME, SCENE_FRAME, PATTERN_FRAME,
LAPSE_EXPIRY, LOSS_EXPIRY. -/

namespace Sys2Proof.Machine

open Sys2Proof

/-- What a command answers. -/
abbrev Answer := Host.Outcome State Fault Refusal

/-! ### Effects -/

/-- The line takes a level (R113): a level other than the one last taken begins its qualification, and a return to it
within 2 ms ends it. While RESET is asserted only the line itself changes. -/
def State.lowreqLineTo (s : State) (active : Bool) : State :=
  if active = s.sup.lowreqLine then s
  else
    { s with
      sup := { s.sup with
        lowreqLine := active
        lowreqHeld := if s.inReset || decide (active = s.sup.lowreqLevel) then none else some 0 } }

/-- The new level has held for 2 ms (R113): the ticks of its qualification that are left pass, and it is taken as a
change of the LOWREQ level, at which the mode is decided again. With no level being qualified nothing happens. -/
def State.lowreqTaken (s : State) : State :=
  match s.sup.lowreqHeld with
  | none => s
  | some h =>
    let s1 := s.elapse (Config.lowreqTicks - h)
    ({ s1 with sup := { s1.sup with lowreqLevel := s1.sup.lowreqLine, lowreqHeld := none } } : State).decideMode

/-- A frame error (R122, R123): the frame is discarded, the count rises, FRAME_ERROR is set. -/
def State.frameDiscarded (s : State) (restarted : Bool) : State :=
  ({ s with rx := s.rx.discard restarted } : State).raise Flag.frameError.mask

/-- A START symbol (R122): a new frame begins; a frame being assembled is discarded as a frame error. -/
def State.startReceived (s : State) : State :=
  if s.rx.assembling then s.frameDiscarded true else { s with rx := s.rx.begin }

/-- A downstream frame fails (R122, R123). Data bytes that pass every check of R123 are no frame error. The row stands for
its whole failed frame, its START included, so it counts one frame error whether or not the Receiver is assembling
(DESIGN CHOICE, unsafe, log entry 27). -/
def State.frameFails (s : State) (cause : FrameFault) : State :=
  match cause with
  | .startInFrame => s.frameDiscarded true
  | .overflow => s.frameDiscarded false
  | .failedCheck data => if (receive data).isNone then s.frameDiscarded false else s

/-- Line squelch (R122, R134): a partial frame is discarded as a frame error, and the link goes to DOWN. -/
def State.squelched (s : State) : State :=
  let s1 := if s.rx.assembling then s.frameDiscarded false else s
  s1.withLink s1.link.squelch

/-- A MOTION frame (R124): the held motion record is replaced, then the Link Monitor takes the arrival, then the
Supervisor's decisions of the arrival are made. -/
def State.motionArrives (s : State) (m : MotionPayload) : State :=
  let s1 : State :=
    { s with rx := s.rx.accepted (frameBytes classMotion (motionBytes m)), motion := motionOf m }
  (s1.withLink { link := s1.link.arrival s1.bank.active s1.time.msClock, mask := 0#16 }).testSpeedCheck

/-- A SCENE frame (R51 to R54, R114): the Scene Assembler takes it, and a scene close clears SCENE_STALE. -/
def State.sceneArrives (s : State) (p : ScenePayload) : State :=
  let e := takeScene s.bank.active s.time.msClock p s.table
  ({ s with
      rx := s.rx.accepted (frameBytes classScene (sceneBytes p))
      table := e.table
      sup := { s.sup with sceneStale := s.sup.sceneStale && !e.closed } } :
    State).raise e.mask

/-- A PATTERN frame (R8): the whole buffer of the side it names is replaced. -/
def State.patternArrives (s : State) (p : PatternPayload) (d : Side) : State :=
  { s with
    rx := s.rx.accepted (frameBytes classPattern (patternBytes p))
    composer := { s.composer with streams := s.composer.streams.set d (streamOf p.levels) } }

/-- A PATTERN frame whose framing fails is discarded (R8, R123). -/
def State.patternFrame (s : State) (p : PatternPayload) : State :=
  match sideOf p.side with
  | some d => if p.framed then s.patternArrives p d else s.frameDiscarded false
  | none => s.frameDiscarded false

/-- The lapse expiry (R133). -/
def State.lapseExpires (s : State) : State :=
  s.withLink (s.link.lapse s.bank.active s.time.msClock)

/-- The loss expiry (R133). -/
def State.lossExpires (s : State) : State :=
  s.withLink (s.link.loss s.bank.active s.time.msClock)

/-! ### The rows -/

/-- COLD_RESET (R137). -/
def execColdReset (s : State) : Answer := .next s.coldReset

/-- RESET_ENDS (R137, R110): the RESET line is released; with no reset to end nothing happens. -/
def execResetEnds (s : State) : Answer := .next (if s.inReset then s.endReset else s)

/-- LOWREQ_EDGE (R113). -/
def execLowreqEdge (active : Bool) (s : State) : Answer := .next (s.lowreqLineTo active)

/-- LOWREQ_LEVEL_CHANGE (R113). -/
def execLowreqLevelChange (s : State) : Answer := .next (s.running State.lowreqTaken)

/-- LINE_SQUELCH (R134). -/
def execLineSquelch (s : State) : Answer := .next (s.running State.squelched)

/-- LINK_FRAME_ERROR (R123). -/
def execLinkFrameError (cause : FrameFault) (s : State) : Answer := .next (s.running fun t => t.frameFails cause)

/-- START_SYMBOL (R122). -/
def execStartSymbol (s : State) : Answer := .next (s.running State.startReceived)

/-- MOTION_FRAME (R124). -/
def execMotionFrame (m : MotionPayload) (s : State) : Answer := .next (s.running fun t => t.motionArrives m)

/-- SCENE_FRAME (R51); a payload whose header does not count its records is discarded (R123). -/
def execSceneFrame (p : ScenePayload) (s : State) : Answer :=
  .next (s.running fun t => if p.framed then t.sceneArrives p else t.frameDiscarded false)

/-- PATTERN_FRAME (R8). -/
def execPatternFrame (p : PatternPayload) (s : State) : Answer := .next (s.running fun t => t.patternFrame p)

/-- LAPSE_EXPIRY (R133). -/
def execLapseExpiry (s : State) : Answer := .next (s.running State.lapseExpires)

/-- LOSS_EXPIRY (R133). -/
def execLossExpiry (s : State) : Answer := .next (s.running State.lossExpires)

end Sys2Proof.Machine
end

