-- ==== Sys2Proof/Machine/Manage.lean ====
section
/-! DEFINITION. MANAGE frames and their commands (chapter 11): taking the frame's records one by one, the result of
each command, and the REPLY. Each command's own part is a function of its parameter bytes and the state; its row of
`exec` stands in ManageCommands.lean. -/

namespace Sys2Proof.Machine

open Sys2Proof

/-! ### A MANAGE frame record by record (R158 to R160) -/

/-- The state after a command, its result code, and the bytes it returns (R159). -/
structure CommandEffect where
  state : State
  code : ResultCode
  data : List Byte
  deriving DecidableEq, Repr

/-- A command refused with a code, or answered without an effect: the state is kept (R159). -/
def State.answer (s : State) (code : ResultCode) : CommandEffect := { state := s, code := code, data := [] }

/-- The frame record of a MANAGE frame at its arrival (R158): discarded while warm reset is pending or the queue holds 4
frames. -/
def Management.arriving (m : Management) (tag : Byte) : ManageFrame :=
  { tag := tag
    discarded := m.warmPending || decide (Config.queueDepth ≤ m.queue.length)
    taken := 0, warmTaken := false, results := [], bytes := [] }

/-- The arrival finds the queue full, and no warm reset pending (R158). -/
def Management.overruns (m : Management) : Bool := !m.warmPending && decide (Config.queueDepth ≤ m.queue.length)

/-- A record that no open frame precedes is the first of its MANAGE frame, and the frame is taken or discarded (R158). -/
def State.openFrame (s : State) (tag : Byte) : State :=
  match s.mgmt.manage with
  | some _ => s
  | none =>
    let s1 := s.raise (Flag.manageOverrun.maskIf s.mgmt.overruns)
    { s1 with mgmt := { s1.mgmt with manage := some (s.mgmt.arriving tag) } }

/-- The command of a record in a taken frame: NOT_RUN after a WARM RESET of the same frame, else executed (R159). -/
def State.runCommand (s : State) (f : ManageFrame) (r : ManageRecord) (run : List Byte → State → CommandEffect) :
    CommandEffect :=
  if f.warmTaken then s.answer .notRun else run r.params s

/-- The frame record after a command. -/
def ManageFrame.after (f : ManageFrame) (code : Byte) (r : ManageRecord) (e : CommandEffect) : ManageFrame :=
  { f with
    taken := f.taken + 1
    warmTaken := f.warmTaken || (code == 0x0F#8 && decide (e.code = .ok))
    results := f.results ++ [{ command := code, code := e.code, data := e.data }]
    bytes := f.bytes ++ recordBytes (code, r.params) }

/-- The record is its frame's last: marked so, or the eighth (R123). -/
def ManageFrame.endsWith (f : ManageFrame) (r : ManageRecord) : Bool :=
  r.last || decide (Config.manageCommands ≤ f.taken + 1)

/-- The payload bytes of a frame whose records are all taken (R128). -/
def ManageFrame.payload (f : ManageFrame) : List Byte := f.tag :: BitVec.ofNat 8 f.taken :: f.bytes

/-- The frame ends: the REPLY of a taken frame enters the queue in the reserved slot (R160). -/
def State.closeFrame (s : State) (f : ManageFrame) : State :=
  { s with
    rx := s.rx.accepted (frameBytes classManage f.payload)
    mgmt :=
      { s.mgmt with
        manage := none
        queue := if f.discarded then s.mgmt.queue else s.mgmt.queue ++ [.reply f.tag f.results] } }

/-- One record of a MANAGE frame (R158 to R160): `code` is its command code and `run` the command's own part. In a
discarded frame no command is executed. -/
def State.manageRecord (s : State) (code : Byte) (r : ManageRecord) (run : List Byte → State → CommandEffect) : State :=
  let s1 := s.openFrame r.tag
  match s1.mgmt.manage with
  | none => s1
  | some f =>
    let e := if f.discarded then s1.answer .notRun else s1.runCommand f r run
    let g := f.after code r e
    if f.endsWith r then e.state.closeFrame g
    else { e.state with mgmt := { e.state.mgmt with manage := some g } }

/-! ### Table commands (R148, R153, R159) -/

/-- The offset and count lie within the table, 1 to 48 words (R159). -/
def rangeOk (id off count : Nat) : Bool := decide (1 ≤ count) && decide (count ≤ 48) && decide (off + count ≤ tableSize id)

/-- TABLE WRITE (R148, R159). -/
def tableWriteCommand (params : List Byte) (s : State) : CommandEffect :=
  match writeArgs params with
  | none => s.answer .badRange
  | some a =>
    if tableSize a.table = 0 then s.answer .badTable
    else if !rangeOk a.table a.offset a.words.length then s.answer .badRange
    else
      { state := { s with bank := { s.bank with staged := bankWriteAll s.bank.staged a.table a.offset a.words } }
        code := .ok, data := [] }

/-- TABLE READ (R148, R159, R160). -/
def tableReadCommand (params : List Byte) (s : State) : CommandEffect :=
  match readArgs params with
  | none => s.answer .badRange
  | some a =>
    if tableSize a.table = 0 then s.answer .badTable
    else if decide (1 < a.copyCode) || !rangeOk a.table a.offset a.count then s.answer .badRange
    else
      { state := s, code := .ok
        data := wordsBytes
          (bankReadAll (if a.copyCode = 0 then s.bank.active else s.bank.staged) a.table a.offset a.count) }

/-- A command without parameters: BAD_RANGE where it carries some (R159). -/
def withoutParams (run : State → CommandEffect) (params : List Byte) (s : State) : CommandEffect :=
  match noArgs params with
  | none => s.answer .badRange
  | some () => run s

/-- COMMIT (R153): commit pending is set. -/
def commitCommand : List Byte → State → CommandEffect :=
  withoutParams fun s => { state := { s with bank := { s.bank with commitPending := true } }, code := .pending, data := [] }

/-- DISCARD's effect on the bank (R153). -/
def TableBank.discard (k : TableBank) : TableBank :=
  { k with
    staged := k.active, commitPending := false
    outcome := if k.commitPending then .cancelled else k.outcome }

/-- DISCARD (R153). -/
def discardCommand : List Byte → State → CommandEffect :=
  withoutParams fun s => { state := { s with bank := s.bank.discard }, code := .ok, data := [] }

/-! ### Status, flags, scene, timebase -/

/-- STATUS NOW (R162): a STATUS in a free slot, or the claim waits. -/
def statusNowCommand : List Byte → State → CommandEffect :=
  withoutParams fun s =>
    { state := ({ s with mgmt := { s.mgmt with statusClaim := true } } : State).admitClaims, code := .ok, data := [] }

/-- FLAG CLEAR (R163). -/
def flagClearCommand (params : List Byte) (s : State) : CommandEffect :=
  match wordArg params with
  | none => s.answer .badRange
  | some mask =>
    { state := { s with mgmt := { s.mgmt with sticky := s.mgmt.sticky &&& ~~~mask } }, code := .ok, data := [] }

/-- SCENE CLEAR (R60). -/
def sceneClearCommand : List Byte → State → CommandEffect :=
  withoutParams fun s => { state := { s with table := s.table.clear }, code := .ok, data := [] }

/-- FRAME ALIGN (R140). -/
def frameAlignCommand (params : List Byte) (s : State) : CommandEffect :=
  match wordArg params with
  | none => s.answer .badRange
  | some count =>
    if syncExternal s.bank.active then s.answer .wrongSync
    else if preload s.bank.active < count.toNat then s.answer .badRange
    else { state := { s with time := s.time.load count.toNat }, code := .ok, data := [] }

/-! ### TEST (R116, R117) -/

/-- TEST ENTER (R116). -/
def testEnterCommand (params : List Byte) (s : State) : CommandEffect :=
  match programArgs params with
  | none => s.answer .badRange
  | some p =>
    if !p.wellFormed then s.answer .badRange
    else if s.sup.mode ≠ .normal then s.answer .linkNotUp
    else if tooFast s.bank.active s.motion then s.answer .moving
    else { state := s.startTest p, code := .ok, data := [] }

/-- TEST EXIT (R117): outside TEST it changes nothing. -/
def testExitCommand : List Byte → State → CommandEffect :=
  withoutParams fun s =>
    { state := if s.sup.mode = .test then s.endTest false else s, code := .ok, data := [] }

/-! ### Ports (R101 to R106) -/

/-- A port control command (R104 to R106, R159): BAD_RANGE for another side code, NOT_IN_TEST outside TEST. -/
def portCommand (act : BankCopy → Port → Port) (params : List Byte) (s : State) : CommandEffect :=
  match byteArg params with
  | none => s.answer .badRange
  | some code =>
    match sideOf code with
    | none => s.answer .badRange
    | some d =>
      if s.sup.mode = .test then
        { state := { s with ports := s.ports.set d (act s.bank.active (s.ports.get d)) }, code := .ok, data := [] }
      else s.answer .notInTest

/-- PORT HALT (R104). -/
def portHaltCommand : List Byte → State → CommandEffect := portCommand fun _ p => p.halt

/-- PORT STOP (R105). -/
def portStopCommand : List Byte → State → CommandEffect := portCommand fun _ p => p.stop

/-- PORT RESUME (R106). -/
def portResumeCommand : List Byte → State → CommandEffect := portCommand fun b p => p.resume b

/-- DRIVER PASS (R101). -/
def driverPassCommand (params : List Byte) (s : State) : CommandEffect :=
  match passArgs params with
  | none => s.answer .badRange
  | some a =>
    match sideOf a.side with
    | none => s.answer .badRange
    | some d =>
      if !within 1 4 a.chip || decide (1 < a.direction) then s.answer .badRange
      else if (chipEntry s.bank.active d a.chip).isNone then s.answer .unknownAlias
      else if (s.ports.get d).pass ≠ .empty then s.answer .busy
      else
        let r : PassRequest := { chip := a.chip, write := a.direction == 1, register := a.register, value := a.value }
        { state := { s with ports := s.ports.set d ((s.ports.get d).queuePass s.bank.active d r) }
          code := .queued, data := [] }

/-! ### Warm reset and unknown commands (R159, R164) -/

/-- WARM RESET (R164): warm reset is pending. -/
def warmResetCommand : List Byte → State → CommandEffect :=
  withoutParams fun s => { state := { s with mgmt := { s.mgmt with warmPending := true } }, code := .ok, data := [] }

/-- A command with an unknown code: BAD_COMMAND, whatever its length (R159). -/
def unknownCommandEffect (_params : List Byte) (s : State) : CommandEffect := s.answer .badCommand

/-! ### The upstream queue's head (R161, R164) -/

/-- The frame is the REPLY of a MANAGE frame whose WARM RESET was answered OK (R164). -/
def UpFrame.warmReply : UpFrame → Bool
  | .reply _ rs => rs.any (fun r => r.command == 0x0F#8 && decide (r.code = .ok))
  | _ => false

/-- The END of the head frame has been sent (R161): it leaves the queue, and the freed slot goes at once to a waiting
claim. At the END of the WARM RESET REPLY the warm reset takes effect, and what stands behind it is dropped (R164). -/
def State.headSent (s : State) : State :=
  match s.mgmt.queue with
  | [] => s
  | f :: rest =>
    if f.warmReply then s.warmResetNow
    else ({ s with mgmt := { s.mgmt with queue := rest } } : State).admitClaims

end Sys2Proof.Machine
end

