-- ==== Sys2Proof/Machine/BusCommands.lean ====
section
/-! DEFINITION. The rows of the lamp buses (SEGMENT_WRITE_ACK, REGISTER_ACK, NAK, REPLY_TIMEOUT) and of the upstream
queue (UPSTREAM_FRAME_SENT, QUEUE_CLAIM_ENTRY, WARM_RESET_TAKES_EFFECT). -/

namespace Sys2Proof.Machine

open Sys2Proof

/-! ### Effects -/

/-- An event on one side's bus: the port goes on, the event's flags are set, and a pass-through result formed by it
offers its PASS_RESULT at once (R103, R161). -/
def State.busEvent (s : State) (d : Side) (act : BankCopy → Bool → Port → PortEffect) : State :=
  let e := act s.bank.active (decide (s.sup.mode = .test)) (s.ports.get d)
  (({ s with ports := s.ports.set d e.port } : State).raise e.mask).admitClaims

/-- The warm reset takes effect at the END of its REPLY (R164): where the REPLY is the frame being sent, the head of the
queue, its END and the reset are one moment. Otherwise the reset does not come (log entries 3 and 8). -/
def State.warmResetDue (s : State) : State := if s.mgmt.queue.head?.any UpFrame.warmReply then s.warmResetNow else s

/-! ### The rows -/

/-- SEGMENT_WRITE_ACK (R96, R100). -/
def execSegmentWriteAck (a : SegmentAck) (s : State) : Answer :=
  .next (s.running fun t => t.busEvent a.side fun b test p => p.segmentAck b test a)

/-- REGISTER_ACK (R102). -/
def execRegisterAck (a : RegisterAck) (s : State) : Answer :=
  .next (s.running fun t => t.busEvent a.side fun b test p => p.registerAck b test a)

/-- NAK (R95). -/
def execNak (a : BadAnswer) (s : State) : Answer :=
  .next (s.running fun t => t.busEvent a.side fun b test p => p.badAnswer b test a)

/-- REPLY_TIMEOUT (R95): the reply timeout of the attempt in progress runs out. -/
def execReplyTimeout (side : Side) (s : State) : Answer :=
  .next (s.running fun t => t.busEvent side fun b test p => p.attemptFailed b side test)

/-- UPSTREAM_FRAME_SENT (R161). -/
def execUpstreamFrameSent (s : State) : Answer := .next (s.running State.headSent)

/-- QUEUE_CLAIM_ENTRY (R161): waiting claims take free slots in arbiter order. -/
def execQueueClaimEntry (s : State) : Answer := .next (s.running State.admitClaims)

/-- WARM_RESET_TAKES_EFFECT (R164). -/
def execWarmResetTakesEffect (s : State) : Answer := .next (s.running State.warmResetDue)

end Sys2Proof.Machine
end

