-- ==== Sys2Proof/Machine/ManageCommands.lean ====
section
/-! DEFINITION. The rows of the MANAGE commands (R128, R158 to R160): each is one record of its MANAGE frame, under the
row's command code. -/

namespace Sys2Proof.Machine

open Sys2Proof

/-- TABLE_WRITE (R148, R159). -/
def execTableWrite (r : ManageRecord) (s : State) : Answer := .next (s.running fun t => t.manageRecord 0x01#8 r tableWriteCommand)

/-- TABLE_READ (R148, R159). -/
def execTableRead (r : ManageRecord) (s : State) : Answer := .next (s.running fun t => t.manageRecord 0x02#8 r tableReadCommand)

/-- COMMIT (R153). -/
def execCommit (r : ManageRecord) (s : State) : Answer := .next (s.running fun t => t.manageRecord 0x03#8 r commitCommand)

/-- DISCARD (R153). -/
def execDiscard (r : ManageRecord) (s : State) : Answer := .next (s.running fun t => t.manageRecord 0x04#8 r discardCommand)

/-- STATUS_NOW (R162). -/
def execStatusNow (r : ManageRecord) (s : State) : Answer := .next (s.running fun t => t.manageRecord 0x05#8 r statusNowCommand)

/-- FLAG_CLEAR (R163). -/
def execFlagClear (r : ManageRecord) (s : State) : Answer := .next (s.running fun t => t.manageRecord 0x06#8 r flagClearCommand)

/-- SCENE_CLEAR (R60). -/
def execSceneClear (r : ManageRecord) (s : State) : Answer := .next (s.running fun t => t.manageRecord 0x07#8 r sceneClearCommand)

/-- FRAME_ALIGN (R140). -/
def execFrameAlign (r : ManageRecord) (s : State) : Answer := .next (s.running fun t => t.manageRecord 0x08#8 r frameAlignCommand)

/-- TEST_ENTER (R116). -/
def execTestEnter (r : ManageRecord) (s : State) : Answer := .next (s.running fun t => t.manageRecord 0x09#8 r testEnterCommand)

/-- TEST_EXIT (R117). -/
def execTestExit (r : ManageRecord) (s : State) : Answer := .next (s.running fun t => t.manageRecord 0x0A#8 r testExitCommand)

/-- PORT_HALT (R104). -/
def execPortHalt (r : ManageRecord) (s : State) : Answer := .next (s.running fun t => t.manageRecord 0x0B#8 r portHaltCommand)

/-- PORT_STOP (R105). -/
def execPortStop (r : ManageRecord) (s : State) : Answer := .next (s.running fun t => t.manageRecord 0x0C#8 r portStopCommand)

/-- PORT_RESUME (R106). -/
def execPortResume (r : ManageRecord) (s : State) : Answer := .next (s.running fun t => t.manageRecord 0x0D#8 r portResumeCommand)

/-- DRIVER_PASS (R101). -/
def execDriverPass (r : ManageRecord) (s : State) : Answer := .next (s.running fun t => t.manageRecord 0x0E#8 r driverPassCommand)

/-- WARM_RESET (R164). -/
def execWarmReset (r : ManageRecord) (s : State) : Answer := .next (s.running fun t => t.manageRecord 0x0F#8 r warmResetCommand)

/-- UNKNOWN_COMMAND (R159). -/
def execUnknownCommand (code : Byte) (r : ManageRecord) (s : State) : Answer :=
  .next (s.running fun t => t.manageRecord code r unknownCommandEffect)

end Sys2Proof.Machine
end

