-- ==== Sys2Proof/Machine/TimeCommands.lean ====
section
/-! DEFINITION. The rows of the Frame Timebase and of composition: FRAME_TIMER_EXPIRY, FSYNC_EDGE, STROBE_END,
MS_CLOCK_TICK, COMPOSITION_COMPLETE; and which timed event is due on an empty queue. -/

namespace Sys2Proof.Machine

open Sys2Proof

/-! ### Effects -/

/-- The strobe width runs out (R144): the ticks of the pulse that are left pass, and FSYNC returns to its idle level.
With no pulse in progress nothing happens. -/
def State.strobeEnds (s : State) : State :=
  if s.time.strobeActive then
    let s1 := s.elapse s.time.strobeLeft
    { s1 with time := s1.time.endStrobe }
  else s

/-- The ms clock advances (R145): the ticks left of its 1000 pass. -/
def State.msClockTicks (s : State) : State :=
  let s1 := s.elapse (Config.ticksPerMs - s.time.msTicks)
  { s1 with time := { s1.time with msClock := s1.time.msClock + 1#32, msTicks := s1.time.msTicks - Config.ticksPerMs } }

/-! ### The rows -/

/-- FRAME_TIMER_EXPIRY (R138, R142). -/
def execFrameTimerExpiry (s : State) : Answer := .next (s.running State.timerExpiry)

/-- FSYNC_EDGE (R141). -/
def execFsyncEdge (edge : SyncEdge) (s : State) : Answer := .next (s.running fun t => t.syncEdgeArrives edge)

/-- STROBE_END (R144). -/
def execStrobeEnd (s : State) : Answer := .next (s.running State.strobeEnds)

/-- MS_CLOCK_TICK (R145). -/
def execMsClockTick (s : State) : Answer := .next (s.running State.msClockTicks)

/-- COMPOSITION_COMPLETE (R18). -/
def execCompositionComplete (s : State) : Answer := .next (s.running State.completeComposition)

/-! ### Time on an empty queue -/

/-- A pulse's width has run out and its end has not been taken (R144). -/
def Timebase.strobeOver (t : Timebase) : Bool := t.strobeActive && decide (t.strobeLeft = 0)

/-- The timed event that is due, the first in this order: composition complete at the latest moment R4 allows, the ms clock
(R145), the lapse and the loss expiry (R133), the LOWREQ level (R113), the end of the strobe (R144), the frame timer (R138).
The order is the model's (DESIGN CHOICE, log entry 1). -/
def State.dueEvent (s : State) : Option Instr :=
  if s.composer.inFlight.isSome && decide (Config.compositionTicks ≤ s.time.sinceEvent) then some .compositionComplete
  else if Config.ticksPerMs ≤ s.time.msTicks then some .msClockTick
  else if lapseDue s.bank.active s.time.msClock s.link then some .lapseExpiry
  else if lossDue s.bank.active s.time.msClock s.link then some .lossExpiry
  else if s.sup.lowreqHeld.any (fun h => decide (Config.lowreqTicks ≤ h)) then some .lowreqLevelChange
  else if s.time.strobeOver then some .strobeEnd
  else if s.time.expiryReady then some .frameTimerExpiry
  else none

end Sys2Proof.Machine
end

