-- ==== Sys2Proof/Machine/Dispatch.lean ====
section
/-! DEFINITION. The meaning of every command: one arm for each row of spec/opcode_table.json. -/

namespace Sys2Proof.Machine

open Sys2Proof

def exec (i : Instr) (s : State) : Host.Outcome State Fault Refusal :=
  match i with
  | .coldReset => Sys2Proof.Machine.execColdReset s
  | .lowreqEdge active => Sys2Proof.Machine.execLowreqEdge active s
  | .lowreqLevelChange => Sys2Proof.Machine.execLowreqLevelChange s
  | .lineSquelch => Sys2Proof.Machine.execLineSquelch s
  | .linkFrameError cause => Sys2Proof.Machine.execLinkFrameError cause s
  | .motionFrame m => Sys2Proof.Machine.execMotionFrame m s
  | .sceneFrame p => Sys2Proof.Machine.execSceneFrame p s
  | .patternFrame p => Sys2Proof.Machine.execPatternFrame p s
  | .tableWrite r => Sys2Proof.Machine.execTableWrite r s
  | .tableRead r => Sys2Proof.Machine.execTableRead r s
  | .commit r => Sys2Proof.Machine.execCommit r s
  | .discard r => Sys2Proof.Machine.execDiscard r s
  | .statusNow r => Sys2Proof.Machine.execStatusNow r s
  | .flagClear r => Sys2Proof.Machine.execFlagClear r s
  | .sceneClear r => Sys2Proof.Machine.execSceneClear r s
  | .frameAlign r => Sys2Proof.Machine.execFrameAlign r s
  | .testEnter r => Sys2Proof.Machine.execTestEnter r s
  | .testExit r => Sys2Proof.Machine.execTestExit r s
  | .portHalt r => Sys2Proof.Machine.execPortHalt r s
  | .portStop r => Sys2Proof.Machine.execPortStop r s
  | .portResume r => Sys2Proof.Machine.execPortResume r s
  | .driverPass r => Sys2Proof.Machine.execDriverPass r s
  | .warmReset r => Sys2Proof.Machine.execWarmReset r s
  | .unknownCommand code r => Sys2Proof.Machine.execUnknownCommand code r s
  | .upstreamFrameSent => Sys2Proof.Machine.execUpstreamFrameSent s
  | .queueClaimEntry => Sys2Proof.Machine.execQueueClaimEntry s
  | .warmResetTakesEffect => Sys2Proof.Machine.execWarmResetTakesEffect s
  | .frameTimerExpiry => Sys2Proof.Machine.execFrameTimerExpiry s
  | .fsyncEdge edge => Sys2Proof.Machine.execFsyncEdge edge s
  | .strobeEnd => Sys2Proof.Machine.execStrobeEnd s
  | .msClockTick => Sys2Proof.Machine.execMsClockTick s
  | .lapseExpiry => Sys2Proof.Machine.execLapseExpiry s
  | .lossExpiry => Sys2Proof.Machine.execLossExpiry s
  | .compositionComplete => Sys2Proof.Machine.execCompositionComplete s
  | .segmentWriteAck a => Sys2Proof.Machine.execSegmentWriteAck a s
  | .registerAck a => Sys2Proof.Machine.execRegisterAck a s
  | .nak a => Sys2Proof.Machine.execNak a s
  | .replyTimeout side => Sys2Proof.Machine.execReplyTimeout side s
  | .startSymbol => Sys2Proof.Machine.execStartSymbol s
  | .resetEnds => Sys2Proof.Machine.execResetEnds s

end Sys2Proof.Machine
end

