-- ==== Sys2Proof/Machine/Step.lean ====
section
/-! DEFINITION. One step: the command at the front of the queue; on an empty queue, the timed event that is due, or one
tick of 1 µs. -/

namespace Sys2Proof.Machine

open Sys2Proof

/-- A command taken with the rest of the queue left waiting. -/
def State.withQueue (s : State) (q : List Instr) : State := { s with pending := q }

/-- Time on an empty queue: the timed event that is due is taken, or else one tick passes; while RESET is asserted
nothing does (R137). -/
def State.idle (s : State) : Host.Outcome State Fault Refusal :=
  if s.inReset then .next s
  else match s.dueEvent with
    | some i => exec i s
    | none => .next (s.elapse 1)

/-- One step of the part. -/
def step (s : State) : Host.Outcome State Fault Refusal :=
  match s.pending with
  | [] => s.idle
  | i :: rest => exec i (s.withQueue rest)

/-- The state with the command that a word spells at the front of its queue; unchanged where the word spells none. -/
def State.withFetchWord (s : State) (nbits w : Nat) : State :=
  match Sys2Proof.decodeTableWord nbits w with
  | some i => { s with pending := i :: s.pending }
  | none => s

end Sys2Proof.Machine
end

