-- ==== Sys2Proof/Safety.lean ====
section
/-! DEFINITION. The laws of the part as predicates on its state, and the terms in which statements speak of a MANAGE
record's answer and of what a port does next. A run is safe when every law holds at each of its states; no command ends in
a fault or a refusal. -/

namespace Sys2Proof.Machine

open Sys2Proof

/-! ### Upstream queue (R161) -/

/-- The queue holds at most four frames, the slot reserved for a REPLY included (R161). -/
def Management.queueLaw (m : Management) : Bool := decide (m.queue.length + m.reserved ≤ 4)

/-- A claim waits for a slot: a held pass-through result of either side, a STATUS NOW or a report-now (R161). -/
def State.claimWaits (s : State) : Bool :=
  (s.ports.left.pass.offer .left).isSome || (s.ports.right.pass.offer .right).isSome || s.mgmt.statusClaim
    || s.mgmt.reportClaim

/-- A free slot and a waiting claim do not stand together (R161). -/
def State.claimLaw (s : State) : Bool := !(s.mgmt.hasRoom && s.claimWaits)

/-! ### Beam mode (R111) -/

/-- The mode that a link state allows: NORMAL or TEST only while UP, HOLD only while LAPSED, FALLBACK or DARK only while
DOWN or SETTLING (R111). -/
def BeamMode.allowedIn : BeamMode → LinkState → Bool
  | .normal, l => decide (l = .up)
  | .test, l => decide (l = .up)
  | .hold, l => decide (l = .lapsed)
  | .fallback, l => decide (l = .down) || decide (l = .settling)
  | .dark, l => decide (l = .down) || decide (l = .settling)

/-- FALLBACK goes with an active LOWREQ level and DARK with an inactive one (R111). -/
def BeamMode.allowedAt : BeamMode → Bool → Bool
  | .fallback, level => level
  | .dark, level => !level
  | _, _ => true

/-- The law of R111; a test is active exactly in TEST (R110); while RESET is asserted the link is DOWN (R130). -/
def State.modeLaw (s : State) : Bool :=
  s.sup.mode.allowedIn s.link.state && s.sup.mode.allowedAt s.sup.lowreqLevel
    && (s.sup.testActive == decide (s.sup.mode = .test)) && (!s.inReset || decide (s.link.state = .down))

/-! ### Bend (R39) -/

/-- One side's angle lies within θmax and its shift within a lamp width (R35, R39). -/
def BendUnit.within (b : BankCopy) (u : BendUnit) (d : Side) : Bool :=
  decide ((u.theta.get d).natAbs ≤ thetaMax b) && decide ((u.shift.get d).natAbs ≤ 16 * colCount b d)

/-- The law of R39: angles within θmax and shifts within 16 × C under ACTIVE, and both 0 in FALLBACK, DARK and TEST
(R38); while RESET is asserted the mode is one of these (R110). -/
def State.bendLaw (s : State) : Bool :=
  s.bend.within s.bank.active .left && s.bend.within s.bank.active .right
    && (!s.sup.mode.unbent || (decide (s.bend.theta = .both 0) && decide (s.bend.shift = .both 0)))
    && (!s.inReset || s.sup.mode.unbent)

/-! ### Track Table (R40, R41) -/

/-- One entry's law: a FREE entry holds the FREE values (R40); a track's id lies in 1..254 (R44), its counts within
their ranges, and only a COASTING track that has not been reported since holds misses (R45, R55, R56). -/
def Track.entryLaw (t : Track) : Bool :=
  if t.state = .free then decide (t = Track.freeEntry)
  else
    decide (1 ≤ t.objectId) && decide (t.objectId ≤ 254) && decide (t.hits ≤ 15) && decide (t.misses ≤ 15)
      && (decide (t.state = .coasting) || t.misses == 0) && (!t.seen || t.misses == 0)

/-- The ids of the tracks, that is of the non-FREE entries, in slot order. -/
def trackIds (ts : List Track) : List Nat := (ts.filter (fun t => decide (t.state ≠ .free))).map Track.objectId

/-- The law of R41: 24 slots, and no two tracks with one object id; every entry keeps its own law. -/
def TrackTable.law (t : TrackTable) : Bool :=
  decide (t.tracks.length = 24) && decide (trackIds t.tracks).Nodup && t.tracks.all Track.entryLaw

/-! ### Shadow windows (R62, R75) -/

/-- A window has a width and a height, inside its side's lamp (R62, R72). -/
def windowInside (b : BankCopy) (d : Side) (w : Window) : Bool :=
  decide (w.left < w.right) && decide (w.bottom < w.top) && decide (spanLeft b d ≤ w.left)
    && decide (w.right ≤ spanRight b d) && decide (-500 ≤ w.bottom) && decide (w.top ≤ 1000)

/-- Each window's left edge lies above the previous one's, and at least the gap beyond the previous right edge (R75). -/
def windowsApart (gap : Int) : List Window → Bool
  | w :: v :: rest => decide (w.left < v.left) && decide (gap ≤ v.left - w.right) && windowsApart gap (v :: rest)
  | _ => true

/-- The law of one side's list (R62, R75). -/
def windowLaw (b : BankCopy) (d : Side) (ws : List Window) : Bool :=
  decide (ws.length ≤ 24) && windowsApart (minGap b) ws && ws.all (windowInside b d)

/-- The law of both lists (R62, R75), with the 24 slots of the table they are built from. -/
def State.windowsLaw (s : State) : Bool :=
  decide (s.table.tracks.length = 24) && windowLaw s.bank.active .left s.windows.left
    && windowLaw s.bank.active .right s.windows.right

/-! ### Table Bank (section 10, R155) -/

/-- Both copies are in canonical form. -/
def TableBank.canonical (k : TableBank) : Bool := bankWf k.active && bankWf k.staged

/-- ACTIVE has passed validation (section 10, R154). -/
def TableBank.activeValid (k : TableBank) : Bool := (bankFault k.active).isNone

/-! ### Levels (R87) -/

/-- Every level is at most 1023. -/
def levelsOk (ls : List Nat) : Bool := ls.all (fun v => decide (v ≤ 1023))

/-- The inputs of a composition give levels: a validated bank, indices 0..15, streams and test patterns of levels. -/
def CompositionInputs.sound (x : CompositionInputs) : Bool :=
  (bankFault x.active).isNone && decide (x.lowIndex ≤ 15) && decide (x.adaptiveIndex ≤ 15)
    && levelsOk x.streams.left.levels && levelsOk x.streams.right.levels && levelsOk x.test.left && levelsOk x.test.right

/-- The law of R87: every level and every target lies within 0..1023, with what it needs of the inputs. -/
def State.levelLaw (s : State) : Bool :=
  s.bank.activeValid && decide (s.motion.lowIndex ≤ 15) && decide (s.motion.adaptiveIndex ≤ 15)
    && levelsOk s.composer.streams.left.levels && levelsOk s.composer.streams.right.levels
    && s.sup.program.all TestProgram.wellFormed && s.composer.inFlight.all CompositionInputs.sound
    && levelsOk s.composer.targets.left.levels && levelsOk s.composer.targets.right.levels
    && levelsOk (s.segments.left.map SegmentRecord.level) && levelsOk (s.segments.right.map SegmentRecord.level)

/-! ### Lamp bus ports (R92, R97, R98, R105) -/

/-- The slot is WAITING. -/
def PassSlot.isWaiting : PassSlot → Bool
  | .waiting _ => true
  | _ => false

/-- The slot is IN PROGRESS. -/
def PassSlot.isInProgress : PassSlot → Bool
  | .inProgress _ => true
  | _ => false

/-- An item is on the bus. -/
def Transaction.isItem : Transaction → Bool
  | .item _ _ _ => true
  | _ => false

/-- The transaction on the bus agrees with the frame in flight and the pass-through slot (R92): an item is the one last
begun of the in-flight frame, and the slot is IN PROGRESS exactly while a pass-through is on the bus. -/
def Port.busLaw (p : Port) : Bool :=
  match p.txn with
  | .quiet => !p.pass.isInProgress
  | .item it _ _ => !p.pass.isInProgress && p.inFlight.any (fun f => f.items[f.position - 1]? == some it)
  | .pass _ _ _ => p.pass.isInProgress

/-- A transfer list: aliases 1..4, each at most once, and the last item alone marked LAST (R97). -/
def itemsLaw (items : List TransferItem) : Bool :=
  decide (items.map TransferItem.chip).Nodup && items.all (fun it => within 1 4 it.chip)
    && decide (items.map TransferItem.last = (List.range items.length).map (fun i => decide (i + 1 = items.length)))

/-- The in-flight frame and the remainder (R92, R99, R105): between its items' ends a frame in flight has an item on the
bus or items left, and a remainder is what is left of the in-flight frame. -/
def Port.flightLaw (p : Port) : Bool :=
  match p.inFlight with
  | none => decide (p.remainder = []) && !p.txn.isItem
  | some f =>
    itemsLaw f.items && decide (1 ≤ f.position) && decide (f.position ≤ f.items.length)
      && (p.txn.isItem || decide (f.position < f.items.length))
      && (decide (p.remainder = []) || decide (p.remainder = f.items.drop f.position))

/-- What each port state says of the rest of the port's record (R98, R99, R101, R104, R105). -/
def Port.stateLaw (p : Port) : Bool :=
  match p.state with
  | .idle => decide (p.txn = .quiet) && p.inFlight.isNone && p.pendingFrame.isNone && !p.pass.isWaiting
  | .sending => decide (p.txn ≠ .quiet)
  | .halting => decide (p.txn ≠ .quiet)
  | .halted =>
    p.inFlight.isNone && p.pendingFrame.isNone && (!p.pass.isWaiting || decide (p.txn ≠ .quiet))
  | .stopped =>
    p.pendingFrame.isNone && (!p.pass.isWaiting || decide (p.txn ≠ .quiet))
      && p.inFlight.all (fun f => decide (p.remainder = f.items.drop f.position))

/-- The law of one port's record. -/
def Port.law (p : Port) : Bool := p.busLaw && p.flightLaw && p.stateLaw

/-- The law of both ports. -/
def State.portsLaw (s : State) : Bool := s.ports.left.law && s.ports.right.law

/-- The items of the in-flight frame whose SEGMENT WRITEs are on the bus or still to be sent. -/
def Port.unsent (p : Port) : List TransferItem :=
  match p.inFlight with
  | none => []
  | some f => f.items.drop (if p.txn.isItem then f.position - 1 else f.position)

/-- The law of R97: in the delivery of a frame whose number is no multiple of 16, no SEGMENT WRITE goes to a chip that is
UNREACHABLE. -/
def Port.probeLaw (p : Port) : Bool :=
  p.inFlight.all (fun f => decide (f.frame.number.toNat % 16 = 0))
    || p.unsent.all (fun it => !(p.chip it.chip).any (fun r => decide (r.state = .unreachable)))

/-- The law of R97 on both ports. -/
def State.probesLaw (s : State) : Bool := s.ports.left.probeLaw && s.ports.right.probeLaw

/-! ### What a port does next (R98, R99, R102, R103) -/

/-- `q` is the SENDING port `p`, with nothing in flight and no pass-through to perform, after the end of step 2 of R99: the
pending frame starts as R98 states for IDLE, and with none the port is IDLE. -/
def Port.TakesPending (b : BankCopy) (d : Side) (p q : Port) : Prop :=
  (p.pendingFrame = none → q = { p with state := .idle })
  ∧ ∀ f, p.pendingFrame = some f → f.side = d →
      q = (Port.frameArrives b f { p with state := .idle, pendingFrame := none }).port

/-- `q` is the port `p`, with nothing on the bus, after the steps 2 to 4 of R99, and `added` the frames that enter the
upstream queue with it; `test` says whether the mode is TEST and `room` whether the queue has a free slot. A HALTING port is
HALTED in TEST, its pending frame discarded, and goes on as SENDING outside TEST; HALTED and STOPPED ports keep their state. A
WAITING pass-through is performed before a pending frame: its first attempt begins at the address of the driver map, or, where
the map leaves its alias unused, it has FAILED (R102), its PASS_RESULT enters a free slot at once (R103), and the port goes
on. -/
def Port.Proceeds (b : BankCopy) (d : Side) (test room : Bool) (p q : Port) (added : List UpFrame) : Prop :=
  let sends := decide (p.state = .sending) || (decide (p.state = .halting) && !test)
  let halts := decide (p.state = .halting) && test
  let held : Port := if halts = true then { p with state := .halted, pendingFrame := none } else p
  ((∀ r, p.pass ≠ .waiting r) → added = [] ∧ (sends = true → p.TakesPending b d q) ∧ (sends = false → q = held))
  ∧ (∀ r e, p.pass = .waiting r → chipEntry b d r.chip = some e →
      added = [] ∧ q = { held with
        state := if sends = true ∨ p.state = .idle then .sending else held.state
        pass := .inProgress r
        txn := .pass e.address 1 (natField b 8 8) })
  ∧ ∀ r, p.pass = .waiting r → chipEntry b d r.chip = none →
      let slot : PassSlot := if room = true then .empty else .held r none
      added = (if room = true then [.passResult d r.chip none] else [])
      ∧ (sends = true → Port.TakesPending b d { p with pass := slot } q)
      ∧ (sends = false → q = { held with pass := slot })

/-! ### Ranges (R6, R24, R92, R93, R123, R137) -/

/-- The held motion record lies in its ranges (R24). -/
def Motion.inRange (m : Motion) : Bool :=
  decide (m.speed ≤ 2000) && decide (m.yaw.natAbs ≤ 12000) && decide (m.wheel.natAbs ≤ 4500)
    && decide (m.lowIndex ≤ 15) && decide (m.adaptiveIndex ≤ 15)

/-- A port has four chip records, and no count of failed frames above 4 (R93). -/
def Port.chipsLaw (p : Port) : Bool := decide (p.chips.length = 4) && p.chips.all (fun r => decide (r.failed ≤ 4))

/-- Saturating counts and fixed lengths (R7, R24, R51, R80, R93, R123, R137). -/
def State.rangeLaw (s : State) : Bool :=
  decide (s.rx.errorCount ≤ 65535) && s.motion.inRange && decide (s.table.reportCount ≤ 255)
    && decide (s.time.flywheel ≤ 8) && s.ports.left.chipsLaw && s.ports.right.chipsLaw
    && decide (s.composer.streams.left.age ≤ 255) && decide (s.composer.streams.right.age ≤ 255)
    && decide (s.composer.streams.left.levels.length = 128) && decide (s.composer.streams.right.levels.length = 128)
    && decide (s.segments.left.length = 128) && decide (s.segments.right.length = 128)

/-! ### The answer to a MANAGE record (R158 to R160) -/

/-- The record's command is executed: its MANAGE frame is taken and no WARM RESET of the frame stands before it (R158,
R159). -/
def State.executes (s : State) : Bool :=
  !s.inReset &&
    match s.mgmt.manage with
    | some f => !f.discarded && !f.warmTaken
    | none => !s.mgmt.warmPending && decide (s.mgmt.queue.length < 4)

/-- The frame the record belongs to: the one open, or a new one with the record's tag. -/
def State.frameFor (s : State) (r : ManageRecord) : ManageFrame :=
  s.mgmt.manage.getD { tag := r.tag, discarded := false, taken := 0, warmTaken := false, results := [], bytes := [] }

/-- The frame with one more record, and its result. -/
def ManageFrame.extended (f : ManageFrame) (code : Byte) (r : ManageRecord) (c : ResultCode) (data : List Byte) : ManageFrame :=
  { tag := f.tag
    discarded := f.discarded
    taken := f.taken + 1
    warmTaken := f.warmTaken || (decide (code = 0x0F#8) && decide (c = .ok))
    results := f.results ++ [{ command := code, code := c, data := data }]
    bytes := f.bytes ++ code :: BitVec.ofNat 8 r.params.length :: r.params }

/-- The state `t` that a command left, with the result noted: the frame stays open; or, at the frame's last or eighth
record, it ends and its REPLY enters the queue, unless the frame was discarded (R158, R160). A START already received is the
frame's own (log entry 31). -/
def State.noted (t : State) (f : ManageFrame) (r : ManageRecord) : State :=
  if r.last = true ∨ 8 ≤ f.taken then
    { t with
      rx := { t.rx with
        assembling := false
        buffer := frameBytes classManage (f.tag :: BitVec.ofNat 8 f.taken :: f.bytes) }
      mgmt := { t.mgmt with
        manage := none
        queue := if f.discarded then t.mgmt.queue else t.mgmt.queue ++ [.reply f.tag f.results] } }
  else { t with mgmt := { t.mgmt with manage := some f } }

/-- The state `t` that an executed command left, with its answer (R159, R160). -/
def State.answered (s t : State) (code : Byte) (r : ManageRecord) (c : ResultCode) (data : List Byte) : State :=
  t.noted ((s.frameFor r).extended code r c data) r

/-- The parameter length each command's layout gives (R128, R159). -/
def lengthFits (code : Nat) (params : List Byte) : Bool :=
  match code with
  | 0x01 => decide (4 ≤ params.length) && params.length == 4 + 2 * (params.getD 3 0#8).toNat
  | 0x02 => params.length == 5
  | 0x06 => params.length == 2
  | 0x08 => params.length == 2
  | 0x09 => params.length == 9
  | 0x0B => params.length == 1
  | 0x0C => params.length == 1
  | 0x0D => params.length == 1
  | 0x0E => params.length == 6
  | _ => params.length == 0

end Sys2Proof.Machine
end

