-- ==== Sys2Proof/WellFormed.lean ====
section
/-! DEFINITION. Which commands are well formed: operands that the Beam Link and the lamp bus can carry. A meaning is
total all the same; what it does with an ill-formed operand is what R123 and R159 say of such a frame or record. -/

namespace Sys2Proof

/-- A MANAGE record's parameter length fits its one byte (R128). -/
def ManageRecord.wf (r : ManageRecord) : Bool := decide (r.params.length ≤ 255)

/-- A code that names no command of R128. -/
def unknownCode (c : Byte) : Bool := decide (c.toNat = 0) || decide (15 < c.toNat)

/-- A physical address a driver chip may have (R93). -/
def chipAddress (a : Nat) : Bool := decide (1 ≤ a) && decide (a ≤ 127)

/-- Well-formed commands. -/
def Instr.wf : Instr → Bool
  | .coldReset => true
  | .lowreqEdge _ => true
  | .lowreqLevelChange => true
  | .lineSquelch => true
  | .linkFrameError .startInFrame => true
  | .linkFrameError .overflow => true
  | .linkFrameError (.failedCheck data) => (receive data).isNone && decide (data.length ≤ Config.bufferBytes)
  | .motionFrame _ => true
  | .sceneFrame p => p.framed
  | .patternFrame p => p.framed
  | .tableWrite r => r.wf
  | .tableRead r => r.wf
  | .commit r => r.wf
  | .discard r => r.wf
  | .statusNow r => r.wf
  | .flagClear r => r.wf
  | .sceneClear r => r.wf
  | .frameAlign r => r.wf
  | .testEnter r => r.wf
  | .testExit r => r.wf
  | .portHalt r => r.wf
  | .portStop r => r.wf
  | .portResume r => r.wf
  | .driverPass r => r.wf
  | .warmReset r => r.wf
  | .unknownCommand c r => unknownCode c && r.wf
  | .upstreamFrameSent => true
  | .queueClaimEntry => true
  | .warmResetTakesEffect => true
  | .frameTimerExpiry => true
  | .fsyncEdge _ => true
  | .strobeEnd => true
  | .msClockTick => true
  | .lapseExpiry => true
  | .lossExpiry => true
  | .compositionComplete => true
  | .segmentWriteAck a => chipAddress a.address
  | .registerAck a => chipAddress a.address
  | .nak _ => true
  | .replyTimeout _ => true
  | .startSymbol => true
  | .resetEnds => true

end Sys2Proof
end

