-- ==== Sys2Proof/Certificates/Slice0/Obligations.lean ====
section
/-! DEFINITION. The statements for the provers: what the commands do and leave alone, and the laws every step keeps. -/

open Sys2Proof Sys2Proof.Machine

/-! ### Steps -/

/-- A step runs the command at the front of the queue, with the rest of the queue left waiting. -/
def Obligations.StepRunsFrontCommand : Prop :=
  ∀ (c : Instr) (rest : List Instr) (s : State), s.pending = c :: rest → step s = exec c { s with pending := rest }

/-- An empty queue (the model's choice, log entry 1): nothing happens while RESET is asserted; a timed event that is due
comes; otherwise one tick of 1 µs passes, and the timer finds its count at 0 at the tick after it reached 0 (R138). -/
def Obligations.EmptyQueueLetsTimePass : Prop :=
  ∀ s : State, s.pending = [] →
    (s.inReset = true → step s = .next s)
    ∧ (∀ c, s.inReset = false → s.dueEvent = some c → step s = exec c s)
    ∧ (s.inReset = false → s.dueEvent = none →
        step s = .next
          { s with
            time := { s.time with
              count := s.time.count - 1
              expiryDue := s.time.expiryDue || s.time.count == 0
              sinceEvent := s.time.sinceEvent + 1
              strobeLeft := s.time.strobeLeft - 1
              msTicks := s.time.msTicks + 1 }
            sup := { s.sup with lowreqHeld := s.sup.lowreqHeld.map (· + 1) } })

/-! ### Resets and the LOWREQ line -/

/-- COLD_RESET puts every block at its cold-reset values and holds RESET asserted; RESET_ENDS then takes the LOWREQ level
from the line and decides DARK or FALLBACK, and drives FSYNC under INTERNAL sync; with no reset to end nothing happens.
From the reset's end with LOWREQ inactive the part stands at its reset state. While RESET is asserted no other command but
the level of the LOWREQ line acts (log entry 5). -/
def Obligations.ColdResetAndItsEnd : Prop :=
  (∀ s : State, ∃ t, exec .coldReset s = .next t ∧ t.inReset = true ∧ t.pending = s.pending
    ∧ t.rx = { assembling := false, buffer := [], errorCount := 0 }
    ∧ t.link.state = .down ∧ t.link.estimate = 20 ∧ t.link.stable = 0
    ∧ t.motion = { speed := 0, speedValid := false, yaw := 0, yawValid := false, wheel := 0, wheelValid := false,
                   requested := .off, lowIndex := 0, adaptiveIndex := 0, source := .stored }
    ∧ t.bend = { theta := .both 0, shift := .both 0, inputLost := false }
    ∧ t.table = TrackTable.empty ∧ t.windows = .both []
    ∧ t.composer = { streams := .both StreamBuffer.empty, streamStale := false, inFlight := none,
                     targets := .both TargetFrame.dark }
    ∧ t.segments = .both (List.replicate 128 SegmentRecord.dark)
    ∧ t.ports.left = Port.atReset [.fresh (some 16), .fresh (some 17), .fresh (some 18), .fresh none]
    ∧ t.ports.right = Port.atReset [.fresh (some 32), .fresh (some 33), .fresh (some 34), .fresh none]
    ∧ t.sup.testActive = false ∧ t.sup.sceneStale = true ∧ t.sup.program = none ∧ t.sup.current = none
    ∧ t.sup.walk = 0 ∧ t.sup.dwell = 0 ∧ t.sup.lowreqLine = s.sup.lowreqLine
    ∧ t.time.count = 9999 ∧ t.time.sinceEvent = 0 ∧ t.time.flywheel = 0 ∧ t.time.syncLost = false
    ∧ t.time.strobeActive = false ∧ t.time.msClock = 0#32 ∧ t.time.frameCounter = 0#16 ∧ t.time.fsyncDriven = false
    ∧ (∀ id off, bankRead t.bank.active id off = cellDefault (cellOf id off))
    ∧ (∀ id off, bankRead t.bank.staged id off = cellDefault (cellOf id off))
    ∧ t.bank.commitPending = false ∧ t.bank.outcome = .noOutcome ∧ t.bank.commitCount = 0#16
    ∧ t.mgmt.queue = [] ∧ t.mgmt.sticky = 0#16 ∧ t.mgmt.reportRequest = false ∧ t.mgmt.reportClaim = false
    ∧ t.mgmt.statusClaim = false ∧ t.mgmt.warmPending = false)
  ∧ (∀ s : State, s.inReset = false → exec .resetEnds s = .next s)
  ∧ (∀ s : State, s.inReset = true →
      exec .resetEnds s = .next
        { s with
          inReset := false
          sup := { s.sup with
            lowreqLevel := s.sup.lowreqLine
            lowreqHeld := none
            mode := if s.sup.lowreqLine = true then .fallback else .dark }
          time := { s.time with
            fsyncDriven := !syncExternal s.bank.active
            strobeIdle := strobeIdleLevel s.bank.active } })
  ∧ (∀ s t : State, s.sup.lowreqLine = false → exec .coldReset s = .next t →
      exec .resetEnds t = .next { State.reset with pending := s.pending })
  ∧ (∀ (c : Instr) (s : State), s.inReset = true → c ≠ .coldReset → c ≠ .resetEnds → (∀ active, c ≠ .lowreqEdge active) →
      exec c s = .next s)

/-- The warm reset takes effect at the END of the WARM RESET REPLY, the head of the queue: every block takes its warm-reset
values under the kept tables, the outcome returns to NONE, and the commit count and the LOWREQ line stay; what stood behind
the REPLY is dropped. UPSTREAM_FRAME_SENT of that REPLY and WARM_RESET_TAKES_EFFECT are the same moment (log entry 8). With
another head, or none, WARM_RESET_TAKES_EFFECT does not come (log entry 3). -/
def Obligations.WarmResetKeepsTables : Prop :=
  (∀ s : State, s.inReset = false → (∀ f, s.mgmt.queue.head? = some f → f.warmReply = false) →
    exec .warmResetTakesEffect s = .next s)
  ∧ ∀ (s : State) (f : UpFrame) (rest : List UpFrame), s.inReset = false → s.mgmt.queue = f :: rest → f.warmReply = true →
    ∃ t, exec .warmResetTakesEffect s = .next t ∧ exec .upstreamFrameSent s = .next t
      ∧ t.inReset = false ∧ t.pending = s.pending
      ∧ t.bank = { s.bank with commitPending := false, outcome := .noOutcome }
      ∧ t.link.state = .down ∧ t.link.stable = 0 ∧ t.link.estimate = natField s.bank.active 0 0
      ∧ t.rx = State.reset.rx ∧ t.motion = State.reset.motion ∧ t.bend = State.reset.bend
      ∧ t.table = State.reset.table ∧ t.windows = State.reset.windows ∧ t.composer = State.reset.composer
      ∧ t.segments = State.reset.segments ∧ t.mgmt = State.reset.mgmt
      ∧ (∀ d, t.ports.get d = Port.atReset (freshChips s.bank.active d))
      ∧ t.sup.mode = (if s.sup.lowreqLine = true then .fallback else .dark)
      ∧ t.sup.lowreqLevel = s.sup.lowreqLine ∧ t.sup.lowreqLine = s.sup.lowreqLine ∧ t.sup.testActive = false
      ∧ t.sup.sceneStale = true ∧ t.sup.program = none ∧ t.sup.current = none ∧ t.sup.walk = 0 ∧ t.sup.dwell = 0
      ∧ t.time.count = natField s.bank.active 1 0 ∧ t.time.sinceEvent = 0 ∧ t.time.flywheel = 0
      ∧ t.time.syncLost = false ∧ t.time.strobeActive = false ∧ t.time.msClock = 0#32 ∧ t.time.frameCounter = 0#16

/-- LOWREQ_EDGE begins the qualification of a level other than the one last taken, and a return to that level ends it;
LOWREQ_LEVEL_CHANGE takes the qualified level once 2000 ticks have passed since the edge: in DOWN and SETTLING it gives
FALLBACK or DARK with the bend at 0 where the mode changes, in UP and LAPSED it is kept and the mode stays. The ticks still
missing from the 2000 pass with it (log entries 2 and 22). An edge to the level the line has, and LOWREQ_LEVEL_CHANGE with
nothing being qualified, change nothing (log entry 3). -/
def Obligations.LowreqLevelDecidesFallback : Prop :=
  (∀ (active : Bool) (s : State), s.inReset = false →
    exec (.lowreqEdge active) s = .next
      (if active = s.sup.lowreqLine then s
       else { s with sup := { s.sup with
                lowreqLine := active
                lowreqHeld := if active = s.sup.lowreqLevel then none else some 0 } }))
  ∧ (∀ s : State, s.inReset = false → s.sup.lowreqHeld = none → exec .lowreqLevelChange s = .next s)
  ∧ ∀ (s : State) (h : Nat), s.inReset = false → s.modeLaw = true → s.sup.lowreqHeld = some h →
      ∃ t, exec .lowreqLevelChange s = .next t
        ∧ t.sup = { s.sup with
            lowreqLevel := s.sup.lowreqLine
            lowreqHeld := none
            mode := match s.link.state with
              | .up => s.sup.mode
              | .lapsed => .hold
              | _ => if s.sup.lowreqLine = true then .fallback else .dark }
        ∧ t.bend = (if t.sup.mode = s.sup.mode then s.bend else { s.bend with theta := .both 0, shift := .both 0 })
        ∧ t.time = { s.time with
            count := s.time.count - (2000 - h)
            expiryDue := s.time.expiryDue || decide (s.time.count < 2000 - h)
            sinceEvent := s.time.sinceEvent + (2000 - h)
            strobeLeft := s.time.strobeLeft - (2000 - h)
            msTicks := s.time.msTicks + (2000 - h) }
        ∧ t.inReset = false ∧ t.rx = s.rx ∧ t.link = s.link ∧ t.motion = s.motion ∧ t.table = s.table
        ∧ t.windows = s.windows ∧ t.composer = s.composer ∧ t.segments = s.segments ∧ t.ports = s.ports
        ∧ t.bank = s.bank ∧ t.mgmt = s.mgmt ∧ t.pending = s.pending

/-! ### Sticky flags -/

/-- The sixteen sticky flags stand at the bits 0 to 15 in the order of R129. An event that sets a flag sets its own bit and
no other, and the report request where the report-enable mask, word 11 of ACTIVE SUPERVISION, has the bit of that position,
whether or not the flag was set already; nothing else changes (R163). -/
def Obligations.EachFlagHasItsBit : Prop :=
  let order : List Flag :=
    [.frameError, .manageOverrun, .sceneTruncated, .sceneCrowded, .syncMissing, .syncEarly, .linkLapsed, .linkDown,
     .commitRejected, .testEnded, .driverLost .left, .driverLost .right, .thermalStop .left, .thermalStop .right,
     .frameSuperseded .left, .frameSuperseded .right]
  (∀ f, f ∈ order)
  ∧ ∀ (s : State) (f : Flag) (i : Nat), order[i]? = some f →
    s.flag f = s.mgmt.sticky.getLsbD i
    ∧ (∀ j, (s.raise f.mask).mgmt.sticky.getLsbD j = (s.mgmt.sticky.getLsbD j || decide (i = j)))
    ∧ (∀ g, (s.raise f.mask).flag g = (s.flag g || decide (f = g)))
    ∧ (s.raise f.mask).mgmt.reportRequest
        = (s.mgmt.reportRequest || (bankRead s.bank.active 8 11).getLsbD i)
    ∧ { s.raise f.mask with mgmt := s.mgmt } = s
    ∧ { (s.raise f.mask).mgmt with sticky := s.mgmt.sticky, reportRequest := s.mgmt.reportRequest } = s.mgmt

/-! ### The downstream link -/

/-- START_SYMBOL begins a frame, and discards a partial one; LINK_FRAME_ERROR discards a frame: the frame error count rises
by 1 up to 65535 and FRAME_ERROR is set; data bytes that pass every check are no frame error. Nothing else changes. What
the buffer holds afterwards is the model's (log entries 14 and 17), and so is that LINK_FRAME_ERROR stands for its whole
frame and counts whether or not the Receiver is assembling (log entry 27). -/
def Obligations.ReceiverDiscardsFrames : Prop :=
  (∀ s : State, s.inReset = false → s.rx.assembling = false →
    exec .startSymbol s = .next { s with rx := { s.rx with assembling := true, buffer := [] } })
  ∧ (∀ s : State, s.inReset = false → s.rx.assembling = true →
      exec .startSymbol s = .next
        (({ s with rx := { assembling := true, buffer := [], errorCount := min 65535 (s.rx.errorCount + 1) } } :
          State).raise Flag.frameError.mask))
  ∧ (∀ (cause : FrameFault) (s : State), s.inReset = false →
      (∀ data, cause = .failedCheck data → receive data = none) →
      exec (.linkFrameError cause) s = .next
        (({ s with rx := { assembling := decide (cause = .startInFrame), buffer := [],
                           errorCount := min 65535 (s.rx.errorCount + 1) } } : State).raise Flag.frameError.mask))
  ∧ ∀ (f : DownFrame) (s : State), s.inReset = false → f.framed = true →
      exec (.linkFrameError (.failedCheck f.bytes)) s = .next s

/-- MOTION_FRAME replaces the whole held motion record by the clamped values, and changes nothing of the Track Table, the
windows, the composer, the segment records, the Timebase, the bank or the bend. That it counts no frame error while the
Receiver is assembling is the model's choice (log entry 31). -/
def Obligations.MotionReplacesRecord : Prop :=
  ∀ (m : MotionPayload) (s : State), s.inReset = false → s.modeLaw = true →
    ∃ t, exec (.motionFrame m) s = .next t
      ∧ t.motion =
        { speed := if 2000 < m.speed.toNat then 2000 else m.speed.toNat
          speedValid := m.flags.getLsbD 0
          yaw := if m.yaw.toInt < -12000 then -12000 else if 12000 < m.yaw.toInt then 12000 else m.yaw.toInt
          yawValid := m.flags.getLsbD 1
          wheel := if m.wheel.toInt < -4500 then -4500 else if 4500 < m.wheel.toInt then 4500 else m.wheel.toInt
          wheelValid := m.flags.getLsbD 2
          requested := if m.function.toNat = 0 then .off else if m.function.toNat = 2 then .adaptive else .low
          lowIndex := (m.indices.extractLsb' 4 4).toNat
          adaptiveIndex := (m.indices.extractLsb' 0 4).toNat
          source := if m.flags.getLsbD 3 = true then .streamed else .stored }
      ∧ t.inReset = false ∧ t.rx.errorCount = s.rx.errorCount ∧ t.rx.assembling = false
      ∧ t.bend = s.bend ∧ t.table = s.table ∧ t.windows = s.windows ∧ t.composer = s.composer
      ∧ t.segments = s.segments ∧ t.time = s.time ∧ t.bank = s.bank ∧ t.pending = s.pending
      ∧ t.mgmt.queue = s.mgmt.queue

/-- A MOTION arrival at the Link Monitor: from DOWN it begins SETTLING; otherwise the interval updates E outside the
hysteresis, in SETTLING the stable count runs to the stability count, and LAPSED returns to UP. The gap starts again. -/
def Obligations.MotionArrivalAtMonitor : Prop :=
  ∀ (m : MotionPayload) (s : State), s.inReset = false →
    ∃ t, exec (.motionFrame m) s = .next t
      ∧ t.link.lastArrival = s.time.msClock ∧ t.link.lapseTaken = false ∧ t.link.lossTaken = false
      ∧ (s.link.state = .down →
          t.link.state = .settling ∧ t.link.estimate = natField s.bank.active 0 0 ∧ t.link.stable = 0)
      ∧ (s.link.state ≠ .down →
          let i : Int := (s.time.msClock - s.link.lastArrival).toNat
          let nominal : Int := natField s.bank.active 0 0
          let tolerance : Int := natField s.bank.active 0 1
          let hysteresis : Int := natField s.bank.active 0 2
          let band := decide ((i - nominal).natAbs ≤ tolerance)
          (t.link.estimate : Int)
              = (if hysteresis < (i - s.link.estimate).natAbs
                  then max (max 0 (nominal - tolerance)) (min (nominal + tolerance) i) else s.link.estimate)
            ∧ (s.link.state = .settling →
                t.link.stable = (if band = true then s.link.stable + 1 else 0)
                ∧ t.link.state
                    = (if band = true ∧ 2 ^ (natField s.bank.active 0 3 + 1) ≤ s.link.stable + 1 then .up else .settling))
            ∧ (s.link.state ≠ .settling → t.link.stable = s.link.stable ∧ t.link.state = .up))

/-- The beam mode at a MOTION arrival: NORMAL once the link is UP, except that TEST goes on while the new record's speed
is valid and below the test speed limit; a test ended by the arrival sets TEST_ENDED, resumes both ports and clears the
test program state. -/
def Obligations.MotionArrivalDecidesMode : Prop :=
  ∀ (m : MotionPayload) (s : State), s.inReset = false → s.modeLaw = true →
    let fast := !m.flags.getLsbD 0 || decide (natField s.bank.active 8 7 ≤ min 2000 m.speed.toNat)
    ∃ t, exec (.motionFrame m) s = .next t
      ∧ t.sup.mode = (if s.sup.mode = .test ∧ fast = false then .test
          else if t.link.state = .up then .normal else s.sup.mode)
      ∧ (¬ (s.sup.mode = .test ∧ fast = true) → t.mgmt = s.mgmt ∧ t.ports = s.ports
          ∧ t.sup = { s.sup with mode := t.sup.mode })
      ∧ (s.sup.mode = .test ∧ fast = true → t.mgmt = (s.raise Flag.testEnded.mask).mgmt
          ∧ (∀ d, t.ports.get d = (s.ports.get d).resume s.bank.active)
          ∧ t.sup = { s.sup with mode := .normal, testActive := false, program := none, current := none, walk := 0,
                                 dwell := 0 })

/-- LAPSE_EXPIRY and LOSS_EXPIRY. From UP a due lapse expiry gives LAPSED with LINK_LAPSED and mode HOLD without a change of
the bend; in SETTLING it clears the stable count; not due, it does not come. A due loss expiry in SETTLING or LAPSED gives
DOWN with LINK_DOWN, E kept, and DARK or FALLBACK by the LOWREQ level; otherwise it does not come. `lapseTaken` and
`lossTaken` are the model's own (log entries 3, 19 and 23). -/
def Obligations.GapExpiries : Prop :=
  (∀ s : State, s.inReset = false → lapseDue s.bank.active s.time.msClock s.link = false → exec .lapseExpiry s = .next s)
  ∧ (∀ s : State, s.inReset = false → lossDue s.bank.active s.time.msClock s.link = false → exec .lossExpiry s = .next s)
  ∧ (∀ s : State, s.inReset = false → s.link.state = .settling → s.link.lapseTaken = false →
      s.link.estimate * natField s.bank.active 0 4 < (s.time.msClock - s.link.lastArrival).toNat →
      exec .lapseExpiry s = .next { s with link := { s.link with stable := 0, lapseTaken := true } })
  ∧ (∀ s : State, s.inReset = false → s.modeLaw = true → s.link.state = .up → s.link.lapseTaken = false →
      s.link.estimate * natField s.bank.active 0 4 < (s.time.msClock - s.link.lastArrival).toNat →
      ∃ t, exec .lapseExpiry s = .next t
        ∧ t.link = { s.link with state := .lapsed, lapseTaken := true } ∧ t.sup.mode = .hold ∧ t.bend = s.bend
        ∧ t.flag .linkLapsed = true ∧ t.flag .testEnded = (s.flag .testEnded || decide (s.sup.mode = .test))
        ∧ (s.sup.mode = .normal → t.ports = s.ports ∧ t.sup = { s.sup with mode := .hold })
        ∧ (s.sup.mode = .test → ∀ d, t.ports.get d = (s.ports.get d).resume s.bank.active)
        ∧ t.rx = s.rx ∧ t.motion = s.motion ∧ t.table = s.table ∧ t.windows = s.windows ∧ t.composer = s.composer
        ∧ t.segments = s.segments ∧ t.time = s.time ∧ t.bank = s.bank ∧ t.mgmt.queue = s.mgmt.queue)
  ∧ ∀ s : State, s.inReset = false → s.modeLaw = true → (s.link.state = .settling ∨ s.link.state = .lapsed) →
      s.link.lossTaken = false → natField s.bank.active 0 5 < (s.time.msClock - s.link.lastArrival).toNat →
      ∃ t, exec .lossExpiry s = .next t
        ∧ t.link = { s.link with state := .down, stable := 0, lossTaken := true }
        ∧ t.sup = { s.sup with mode := if s.sup.lowreqLevel = true then .fallback else .dark }
        ∧ t.bend = (if s.link.state = .lapsed then { s.bend with theta := .both 0, shift := .both 0 } else s.bend)
        ∧ t.mgmt = (s.raise Flag.linkDown.mask).mgmt
        ∧ t.rx = s.rx ∧ t.motion = s.motion ∧ t.table = s.table ∧ t.windows = s.windows ∧ t.composer = s.composer
        ∧ t.segments = s.segments ∧ t.ports = s.ports ∧ t.time = s.time ∧ t.bank = s.bank

/-- LINE_SQUELCH: a partial frame is discarded as a frame error, and the link goes to DOWN from any state with LINK_DOWN set
where it was not DOWN; the mode becomes DARK or FALLBACK by the LOWREQ level, and a test ends with TEST_ENDED. -/
def Obligations.SquelchTakesLinkDown : Prop :=
  ∀ s : State, s.inReset = false → s.modeLaw = true →
    ∃ t, exec .lineSquelch s = .next t
      ∧ t.rx = (if s.rx.assembling = true
          then { assembling := false, buffer := [], errorCount := min 65535 (s.rx.errorCount + 1) } else s.rx)
      ∧ t.flag .frameError = (s.flag .frameError || s.rx.assembling)
      ∧ t.flag .linkDown = (s.flag .linkDown || decide (s.link.state ≠ .down))
      ∧ t.flag .testEnded = (s.flag .testEnded || decide (s.sup.mode = .test))
      ∧ (s.link.state = .down → t.link = s.link ∧ t.sup = s.sup ∧ t.bend = s.bend)
      ∧ (s.link.state ≠ .down → t.link = { s.link with state := .down, stable := 0 })
      ∧ t.sup.mode = (if s.sup.lowreqLevel = true then .fallback else .dark)
      ∧ t.bend = (if t.sup.mode = s.sup.mode then s.bend else { s.bend with theta := .both 0, shift := .both 0 })
      ∧ (∀ d, t.ports.get d = if s.sup.mode = .test then (s.ports.get d).resume s.bank.active else s.ports.get d)
      ∧ t.motion = s.motion ∧ t.table = s.table ∧ t.windows = s.windows ∧ t.composer = s.composer
      ∧ t.segments = s.segments ∧ t.time = s.time ∧ t.bank = s.bank ∧ t.mgmt.queue = s.mgmt.queue

/-! ### Scenes and tracks -/

/-- SCENE_FRAME on the open-scene record: a frame continues the open scene of its own id and otherwise opens one, after
closing a scene of another id with SCENE_TRUNCATED; every record is counted, END closes, and a close sets the last scene
time and clears SCENE_STALE. Nothing outside the Scene Assembler, the receiver, SCENE_STALE and the flags changes. That an
accepted frame counts no frame error, and a discarded one a single one, while the Receiver is assembling is the model's choice
(log entry 31). -/
def Obligations.SceneFrameOpensAndCloses : Prop :=
  (∀ (p : ScenePayload) (s : State), s.inReset = false → s.table.reportCount ≤ 255 → p.framed = true →
    let same := s.table.isOpen && decide (s.table.sceneId = p.sceneId.toNat)
    let truncates := s.table.isOpen && decide (s.table.sceneId ≠ p.sceneId.toNat)
    let closes := truncates || p.control.getLsbD 7
    ∃ t, exec (.sceneFrame p) s = .next t
      ∧ t.table.isOpen = !p.control.getLsbD 7 ∧ t.table.sceneId = p.sceneId.toNat
      ∧ t.table.reportCount = min 255 ((if same = true then s.table.reportCount else 0) + p.reports.length)
      ∧ t.table.lastScene = (if closes = true then some s.time.msClock else s.table.lastScene)
      ∧ t.table.tracks.length = s.table.tracks.length
      ∧ t.sup = { s.sup with sceneStale := s.sup.sceneStale && !closes }
      ∧ t.flag .sceneTruncated = (s.flag .sceneTruncated || truncates)
      ∧ t.flag .frameError = (s.flag .frameError || p.reports.any (fun r => (reportOf r).isNone))
      ∧ t.inReset = false ∧ t.rx.errorCount = s.rx.errorCount ∧ t.link = s.link ∧ t.motion = s.motion
      ∧ t.bend = s.bend ∧ t.windows = s.windows ∧ t.composer = s.composer ∧ t.segments = s.segments
      ∧ t.ports = s.ports ∧ t.time = s.time ∧ t.bank = s.bank ∧ t.pending = s.pending
      ∧ t.mgmt.queue = s.mgmt.queue)
  ∧ ∀ (p : ScenePayload) (s : State), s.inReset = false → p.framed = false →
      exec (.sceneFrame p) s = .next
        (({ s with rx := { assembling := false, buffer := [], errorCount := min 65535 (s.rx.errorCount + 1) } } :
          State).raise Flag.frameError.mask)

/-- A scene may be carried by any number of frames: a frame with END clear followed by a frame of the same scene does to
the Track Table, SCENE_STALE and the sticky flags what one frame with all their reports in order does. -/
def Obligations.SceneSplitsIntoFrames : Prop :=
  ∀ (p q r : ScenePayload) (s t u v : State), s.inReset = false → p.framed = true → q.framed = true → r.framed = true →
    p.sceneId = q.sceneId → r.sceneId = p.sceneId → p.control.getLsbD 7 = false →
    r.control.getLsbD 7 = q.control.getLsbD 7 → r.reports = p.reports ++ q.reports →
    exec (.sceneFrame p) s = .next t → exec (.sceneFrame q) t = .next u → exec (.sceneFrame r) s = .next v →
    u.table = v.table ∧ u.sup = v.sup ∧ u.mgmt.sticky = v.mgmt.sticky
      ∧ u.mgmt.reportRequest = v.mgmt.reportRequest

/-- The close of a scene, entry by entry, at a frame with END and no report that continues the open scene: a FREE entry
stays; an entry not seen takes a miss, and goes from TENTATIVE to FREE, from CONFIRMED to COASTING, and from COASTING to
FREE above the coast limit of its class; an entry seen is confirmed by its hits or returns from COASTING; every seen flag
is cleared. -/
def Obligations.SceneCloseCountsMisses : Prop :=
  ∀ (p : ScenePayload) (s : State), s.inReset = false → s.table.isOpen = true → s.table.sceneId = p.sceneId.toNat →
    p.framed = true → p.reports = [] → p.control.getLsbD 7 = true →
    ∃ t, exec (.sceneFrame p) s = .next t ∧ t.table.lastScene = some s.time.msClock ∧ t.table.isOpen = false
      ∧ t.table.crowdedHold = s.table.crowdedHold ∧ t.mgmt = s.mgmt
      ∧ t.table.tracks.length = s.table.tracks.length
      ∧ ∀ (i : Nat) (e : Track), s.table.tracks[i]? = some e →
          (e.state = .free → t.table.tracks[i]? = some e)
          ∧ (e.seen = false → e.state = .tentative → t.table.tracks[i]? = some Track.freeEntry)
          ∧ (e.seen = false → e.state = .confirmed →
              t.table.tracks[i]? = some { e with state := .coasting, misses := min 15 (e.misses + 1) })
          ∧ (e.seen = false → e.state = .coasting →
              t.table.tracks[i]? = some
                (if min 15 (e.misses + 1) ≤ natField s.bank.active 5 (12 * e.cls.code + 2)
                  then { e with misses := min 15 (e.misses + 1) } else Track.freeEntry))
          ∧ (e.seen = true → e.state = .tentative →
              t.table.tracks[i]? = some { e with
                seen := false
                state := if natField s.bank.active 5 (12 * e.cls.code + 1) ≤ e.hits then .confirmed else .tentative })
          ∧ (e.seen = true → (e.state = .confirmed ∨ e.state = .coasting) →
              t.table.tracks[i]? = some { e with seen := false, state := .confirmed })

/-- A checked report of an id that a track holds updates that track, counting one hit a scene; an unknown id with too little
confidence is ignored; with enough it takes the lowest FREE slot as TENTATIVE, or without one the slot of the COASTING
entry with the most misses, or of the TENTATIVE entry with the lowest confidence, lowest slot first among equals; when all
are CONFIRMED it is dropped, SCENE_CROWDED is set and the crowded hold counter takes the crowded hold. A record fails its
check by its id, its class code, its edges or its top, and otherwise gives the clamped values of R43. SCENE_FRAME that
continues the open scene with one record counts it and applies it so, or discards it with FRAME_ERROR. -/
def Obligations.ReportCases : Prop :=
  (∀ raw : SceneReport,
    (reportOf raw = none ↔ raw.objectId.toNat = 0 ∨ raw.objectId.toNat = 255 ∨ 4 ≤ raw.classCode.toNat
        ∨ raw.right.toInt < raw.left.toInt ∨ (raw.presence.getLsbD 0 = true ∧ raw.top.toInt < raw.bottom.toInt))
    ∧ ∀ r, reportOf raw = some r →
        r.objectId = raw.objectId.toNat ∧ r.cls.code = raw.classCode.toNat ∧ r.left = raw.left.toInt
        ∧ r.right = raw.right.toInt ∧ r.bottom = raw.bottom.toInt
        ∧ r.top = (if raw.presence.getLsbD 0 = true then some raw.top.toInt else none)
        ∧ r.rate = (if raw.presence.getLsbD 1 = true then some (max (-3000) (min 3000 raw.rate.toInt)) else none)
        ∧ r.distance = (if raw.presence.getLsbD 2 = true then some (max 10 (min 5000 raw.distance.toNat)) else none)
        ∧ r.confidence = raw.confidence.toNat % 16 ∧ r.captureAge = raw.captureAge.toNat)
  ∧ (∀ (p : ScenePayload) (raw : SceneReport) (s : State), s.inReset = false → s.table.isOpen = true →
      s.table.sceneId = p.sceneId.toNat → p.framed = true → p.reports = [raw] → p.control.getLsbD 7 = false →
      let counted := { s.table with reportCount := min 255 (s.table.reportCount + 1) }
      ∃ t, exec (.sceneFrame p) s = .next t
        ∧ (reportOf raw = none → t.table = counted ∧ t.mgmt = (s.raise Flag.frameError.mask).mgmt)
        ∧ (∀ r, reportOf raw = some r →
            t.table = (applyReport s.bank.active s.time.msClock counted r).1
            ∧ t.mgmt = (s.raise (applyReport s.bank.active s.time.msClock counted r).2).mgmt)
        ∧ { t with rx := s.rx, table := s.table, mgmt := s.mgmt } = s)
  ∧ ∀ (b : BankCopy) (now : MsTime) (t : TrackTable) (r : Report),
    (∀ (i : Nat) (e : Track), (trackIds t.tracks).Nodup → t.tracks[i]? = some e → e.state ≠ .free →
      e.objectId = r.objectId →
      applyReport b now t r =
        ({ t with
            tracks := t.tracks.set i
              { state := e.state, objectId := e.objectId, cls := r.cls, left := r.left, right := r.right,
                bottom := r.bottom, top := r.top, rate := r.rate, distance := r.distance, confidence := r.confidence,
                captureAge := r.captureAge, arrival := now,
                hits := if e.seen = true then e.hits else min 15 (e.hits + 1), misses := 0, seen := true } }, 0#16))
    ∧ (r.objectId ∉ trackIds t.tracks → r.confidence < natField b 5 (12 * r.cls.code) → applyReport b now t r = (t, 0#16))
    ∧ (∀ (i : Nat) (e : Track), r.objectId ∉ trackIds t.tracks → natField b 5 (12 * r.cls.code) ≤ r.confidence →
      t.tracks[i]? = some e → e.state = .free →
      (∀ (j : Nat) (f : Track), j < i → t.tracks[j]? = some f → f.state ≠ .free) →
      applyReport b now t r =
        ({ t with
            tracks := t.tracks.set i
              { state := .tentative, objectId := r.objectId, cls := r.cls, left := r.left, right := r.right,
                bottom := r.bottom, top := r.top, rate := r.rate, distance := r.distance, confidence := r.confidence,
                captureAge := r.captureAge, arrival := now, hits := 1, misses := 0, seen := true } }, 0#16))
    ∧ (r.objectId ∉ trackIds t.tracks → natField b 5 (12 * r.cls.code) ≤ r.confidence →
      (∀ e ∈ t.tracks, e.state ≠ .free) →
      (∀ (i : Nat) (e : Track), t.tracks[i]? = some e → e.state = .coasting →
        (∀ (j : Nat) (f : Track), t.tracks[j]? = some f → f.state = .coasting →
          f.misses < e.misses ∨ (f.misses = e.misses ∧ i ≤ j)) →
        applyReport b now t r = ({ t with tracks := t.tracks.set i (Track.create r now) }, 0#16))
      ∧ (∀ (i : Nat) (e : Track), (∀ f ∈ t.tracks, f.state ≠ .coasting) → (∀ f ∈ t.tracks, f.confidence ≤ 15) →
        t.tracks[i]? = some e → e.state = .tentative →
        (∀ (j : Nat) (f : Track), t.tracks[j]? = some f → f.state = .tentative →
          e.confidence < f.confidence ∨ (f.confidence = e.confidence ∧ i ≤ j)) →
        applyReport b now t r = ({ t with tracks := t.tracks.set i (Track.create r now) }, 0#16))
      ∧ ((∀ e ∈ t.tracks, e.state = .confirmed) →
        applyReport b now t r = ({ t with crowdedHold := natField b 8 4 }, Flag.sceneCrowded.mask)))

/-- PATTERN_FRAME replaces the whole streamed pattern buffer of the side it names, levels clamped to 1023, age 0, valid,
and nothing else but the receiver; a side code that names no side is a frame error and leaves both buffers. That an accepted
frame counts no frame error, and a discarded one a single one, while the Receiver is assembling is the model's choice (log
entry 31). -/
def Obligations.PatternReplacesBuffer : Prop :=
  (∀ (p : PatternPayload) (d : Side) (s : State), s.inReset = false → p.side.toNat = sideCode d → p.levels.length = 128 →
    ∃ t, exec (.patternFrame p) s = .next t
      ∧ t.composer.streams.get d =
        { levels := p.levels.map (fun w => if 1023 < w.toNat then 1023 else w.toNat), age := 0, valid := true }
      ∧ (∀ e, e ≠ d → t.composer.streams.get e = s.composer.streams.get e)
      ∧ { t with rx := s.rx, composer := s.composer } = s
      ∧ { t.composer with streams := s.composer.streams } = s.composer ∧ t.rx.errorCount = s.rx.errorCount)
  ∧ ∀ (p : PatternPayload) (s : State), s.inReset = false → (1 < p.side.toNat ∨ p.levels.length ≠ 128) →
      exec (.patternFrame p) s = .next
        (({ s with rx := { assembling := false, buffer := [], errorCount := min 65535 (s.rx.errorCount + 1) } } :
          State).raise Flag.frameError.mask)

/-! ### MANAGE commands -/

/-- TABLE_WRITE stores its words into STAGED at the words it names and nowhere else, never into ACTIVE; TABLE_READ returns
the words of the copy it names and changes nothing. A bad table id or range is refused without effect. That a MANAGE frame
is a run of such records, `answered` one by one, is the model's choice (log entry 4). -/
def Obligations.TableWriteAndRead : Prop :=
  (∀ (r : ManageRecord) (s : State) (id o1 o2 n : Byte) (ws : List Word), s.executes = true →
    bankWf s.bank.staged = true → r.params = id :: o1 :: o2 :: n :: wordsBytes ws → ws.length = n.toNat →
    (tableSize id.toNat = 0 → exec (.tableWrite r) s = .next (s.answered s 0x01#8 r .badTable []))
    ∧ (tableSize id.toNat ≠ 0 → (n.toNat = 0 ∨ 48 < n.toNat ∨ tableSize id.toNat < (o1 ++ o2).toNat + n.toNat) →
        exec (.tableWrite r) s = .next (s.answered s 0x01#8 r .badRange []))
    ∧ (tableSize id.toNat ≠ 0 → 1 ≤ n.toNat → n.toNat ≤ 48 → (o1 ++ o2).toNat + n.toNat ≤ tableSize id.toNat →
        ∃ staged, exec (.tableWrite r) s
            = .next (s.answered { s with bank := { s.bank with staged := staged } } 0x01#8 r .ok [])
          ∧ ∀ (table off : Nat), off < 256 →
              bankRead staged table off =
                if table = id.toNat ∧ (o1 ++ o2).toNat ≤ off ∧ off < (o1 ++ o2).toNat + n.toNat
                  then ws.getD (off - (o1 ++ o2).toNat) 0#16 else bankRead s.bank.staged table off))
  ∧ ∀ (r : ManageRecord) (s : State) (id c o1 o2 n : Byte), s.executes = true → r.params = [id, c, o1, o2, n] →
      (tableSize id.toNat = 0 → exec (.tableRead r) s = .next (s.answered s 0x02#8 r .badTable []))
      ∧ (tableSize id.toNat ≠ 0 →
          (1 < c.toNat ∨ n.toNat = 0 ∨ 48 < n.toNat ∨ tableSize id.toNat < (o1 ++ o2).toNat + n.toNat) →
          exec (.tableRead r) s = .next (s.answered s 0x02#8 r .badRange []))
      ∧ (tableSize id.toNat ≠ 0 → c.toNat ≤ 1 → 1 ≤ n.toNat → n.toNat ≤ 48 →
          (o1 ++ o2).toNat + n.toNat ≤ tableSize id.toNat →
          exec (.tableRead r) s = .next (s.answered s 0x02#8 r .ok
            ((List.range n.toNat).flatMap (fun i =>
              wordBytes (bankRead (if c.toNat = 0 then s.bank.active else s.bank.staged) id.toNat ((o1 ++ o2).toNat + i))))))

/-- COMMIT sets commit pending and answers PENDING; DISCARD copies ACTIVE into STAGED, cancels a pending commit with the
outcome CANCELLED and otherwise keeps the outcome. ACTIVE and the commit count stay. -/
def Obligations.CommitAndDiscard : Prop :=
  ∀ (r : ManageRecord) (s : State), s.executes = true → r.params = [] →
    exec (.commit r) s
      = .next (s.answered { s with bank := { s.bank with commitPending := true } } 0x03#8 r .pending [])
    ∧ exec (.discard r) s
      = .next (s.answered
          { s with bank :=
              { active := s.bank.active, staged := s.bank.active, commitPending := false,
                outcome := if s.bank.commitPending = true then .cancelled else s.bank.outcome,
                commitCount := s.bank.commitCount } } 0x04#8 r .ok [])

/-- FLAG_CLEAR clears the flags of its mask and leaves the others and the report request; SCENE_CLEAR empties the Track
Table and the open-scene record and keeps the last scene time; WARM_RESET sets warm reset pending and executes no reset. -/
def Obligations.FlagSceneAndWarmCommands : Prop :=
  ∀ (r : ManageRecord) (s : State), s.executes = true →
    (∀ m1 m2, r.params = [m1, m2] →
      exec (.flagClear r) s
        = .next (s.answered { s with mgmt := { s.mgmt with sticky := s.mgmt.sticky &&& ~~~(m1 ++ m2) } } 0x06#8 r .ok []))
    ∧ (r.params = [] →
      exec (.sceneClear r) s
        = .next (s.answered
            { s with table :=
                { tracks := List.replicate 24 Track.freeEntry, isOpen := false, sceneId := 0, reportCount := 0,
                  lastScene := s.table.lastScene, crowdedHold := 0 } } 0x07#8 r .ok []))
    ∧ (r.params = [] →
      exec (.warmReset r) s
        = .next (s.answered { s with mgmt := { s.mgmt with warmPending := true } } 0x0F#8 r .ok []))

/-- A command whose parameter length differs from its layout is answered BAD_RANGE, and a command with an unknown code
BAD_COMMAND whatever its length; neither has any effect. -/
def Obligations.BadLengthAndUnknownCode : Prop :=
  (∀ (code : Byte) (r : ManageRecord) (s : State), s.executes = true → 1 ≤ code.toNat → code.toNat ≤ 15 →
    lengthFits code.toNat r.params = false → exec (commandOf code r) s = .next (s.answered s code r .badRange []))
  ∧ ∀ (code : Byte) (r : ManageRecord) (s : State), s.executes = true →
      exec (.unknownCommand code r) s = .next (s.answered s code r .badCommand [])

/-- MANAGE records that are not executed: those of a frame that finds warm reset pending, or the queue full with
MANAGE_OVERRUN set, have no effect and get no REPLY; those after a WARM RESET of their frame are answered NOT_RUN. The
frame's records come one by one (log entry 4). -/
def Obligations.UnexecutedRecords : Prop :=
  (∀ (code : Byte) (r : ManageRecord) (s : State), s.inReset = false → s.mgmt.manage = none →
    (s.mgmt.warmPending = true ∨ 4 ≤ s.mgmt.queue.length) →
    exec (commandOf code r) s = .next
      ((if s.mgmt.warmPending = true then s else s.raise Flag.manageOverrun.mask).noted
        (ManageFrame.extended { s.frameFor r with discarded := true } code r .notRun []) r))
  ∧ (∀ (code : Byte) (r : ManageRecord) (f : ManageFrame) (s : State), s.inReset = false → s.mgmt.manage = some f →
      (f.discarded = true ∨ f.warmTaken = true) →
      exec (commandOf code r) s = .next (s.noted (f.extended code r .notRun []) r))

/-- FRAME_ALIGN: WRONG_SYNC under EXTERNAL sync, BAD_RANGE for a count above the preload, else the timer's count is loaded
at once. A refusal changes nothing. -/
def Obligations.FrameAlignLoadsTimer : Prop :=
  ∀ (r : ManageRecord) (s : State) (c1 c2 : Byte), s.executes = true → r.params = [c1, c2] →
    (natField s.bank.active 1 1 ≠ 0 → exec (.frameAlign r) s = .next (s.answered s 0x08#8 r .wrongSync []))
    ∧ (natField s.bank.active 1 1 = 0 → natField s.bank.active 1 0 < (c1 ++ c2).toNat →
        exec (.frameAlign r) s = .next (s.answered s 0x08#8 r .badRange []))
    ∧ (natField s.bank.active 1 1 = 0 → (c1 ++ c2).toNat ≤ natField s.bank.active 1 0 →
        exec (.frameAlign r) s = .next (s.answered
          { s with time := { s.time with count := (c1 ++ c2).toNat, expiryDue := false } } 0x08#8 r .ok []))

/-- TEST_ENTER answers BAD_RANGE, LINK_NOT_UP and MOVING in that order and then changes nothing; accepted, it stores the
program, makes the first enabled pattern current, gives the mode TEST and clears the bend. TEST_EXIT in TEST gives NORMAL,
resumes both ports and clears the test program state without TEST_ENDED; outside TEST it changes nothing. -/
def Obligations.TestEnterAndExit : Prop :=
  (∀ (r : ManageRecord) (s : State) (p : TestProgram), s.executes = true → s.modeLaw = true →
    programArgs r.params = some p →
    let formed := !p.enabled.isEmpty && decide (p.storedIndex ≤ 15) && decide (p.level ≤ 1023)
      && (p.scale == 1 || p.scale == 2) && decide (1 ≤ p.dwellFrames) && decide (p.dwellFrames ≤ 1000)
    let moving := !s.motion.speedValid || decide (natField s.bank.active 8 7 ≤ s.motion.speed)
    (formed = false → exec (.testEnter r) s = .next (s.answered s 0x09#8 r .badRange []))
    ∧ (formed = true → s.sup.mode ≠ .normal → exec (.testEnter r) s = .next (s.answered s 0x09#8 r .linkNotUp []))
    ∧ (formed = true → s.sup.mode = .normal → moving = true →
        exec (.testEnter r) s = .next (s.answered s 0x09#8 r .moving []))
    ∧ (formed = true → s.sup.mode = .normal → moving = false →
        exec (.testEnter r) s = .next (s.answered
          { s with
            sup := { s.sup with mode := .test, testActive := true, program := some p, current := p.enabled.head?,
                                walk := 0, dwell := 0 }
            bend := { s.bend with theta := .both 0, shift := .both 0 } } 0x09#8 r .ok [])))
  ∧ ∀ (r : ManageRecord) (s : State), s.executes = true → s.modeLaw = true → r.params = [] →
      (s.sup.mode ≠ .test → exec (.testExit r) s = .next (s.answered s 0x0A#8 r .ok []))
      ∧ (s.sup.mode = .test →
          exec (.testExit r) s = .next (s.answered
            { s with
              sup := { s.sup with mode := .normal, testActive := false, program := none, current := none, walk := 0,
                                  dwell := 0 }
              ports := Sided.of (fun d => (s.ports.get d).resume s.bank.active) } 0x0A#8 r .ok []))

/-- PORT_HALT, PORT_STOP and PORT_RESUME: BAD_RANGE for a side code other than 0 and 1, NOT_IN_TEST outside TEST, and in
TEST the named port alone changes, by the tables of R104, R105 and R106. A PORT_STOP with a pass-through on the bus leaves an
empty remainder; that it drops a frame which a resume left in flight beside the pass-through is log entry 21. -/
def Obligations.PortControlInTest : Prop :=
  ∀ (r : ManageRecord) (s : State) (code : Byte), s.executes = true → r.params = [code] →
    (1 < code.toNat →
      exec (.portHalt r) s = .next (s.answered s 0x0B#8 r .badRange [])
      ∧ exec (.portStop r) s = .next (s.answered s 0x0C#8 r .badRange [])
      ∧ exec (.portResume r) s = .next (s.answered s 0x0D#8 r .badRange []))
    ∧ (code.toNat ≤ 1 → s.sup.mode ≠ .test →
      exec (.portHalt r) s = .next (s.answered s 0x0B#8 r .notInTest [])
      ∧ exec (.portStop r) s = .next (s.answered s 0x0C#8 r .notInTest [])
      ∧ exec (.portResume r) s = .next (s.answered s 0x0D#8 r .notInTest []))
    ∧ ∀ d, code.toNat = sideCode d → s.sup.mode = .test →
      let p := s.ports.get d
      let halted : Port := match p.state with
        | .idle => { p with state := .halted }
        | .sending => { p with state := .halting, pendingFrame := none }
        | _ => p
      let stopped : Port := match p.state with
        | .stopped => p
        | .idle => { p with state := .stopped, remainder := [] }
        | .halted => { p with state := .stopped, remainder := [] }
        | _ => match p.txn with
          | .pass _ _ _ => { p with state := .stopped, inFlight := none, pendingFrame := none, remainder := [] }
          | _ => { p with
              state := .stopped
              pendingFrame := none
              remainder := match p.inFlight with
                | some f => f.items.drop f.position
                | none => [] }
      exec (.portHalt r) s = .next (s.answered { s with ports := s.ports.set d halted } 0x0B#8 r .ok [])
      ∧ exec (.portStop r) s = .next (s.answered { s with ports := s.ports.set d stopped } 0x0C#8 r .ok [])
      ∧ ∃ resumed, exec (.portResume r) s
            = .next (s.answered { s with ports := s.ports.set d resumed } 0x0D#8 r .ok [])
          ∧ (p.state = .idle ∨ p.state = .sending ∨ p.state = .halting → resumed = p)
          ∧ (p.state = .halted ∨ p.state = .stopped → p.txn ≠ .quiet → resumed = { p with state := .sending })
          ∧ (p.state = .halted → p.txn = .quiet → resumed = { p with state := .idle })
          ∧ (p.state = .stopped → p.txn = .quiet → p.inFlight = none → resumed = { p with state := .idle })
          ∧ (∀ f it, p.state = .stopped → p.txn = .quiet → p.inFlight = some f → f.items[f.position]? = some it →
              resumed = { p with
                state := .sending
                txn := .item it 1 (natField s.bank.active 8 9)
                inFlight := some { f with position := f.position + 1 }
                remainder := p.remainder.tail })

/-- DRIVER_PASS: BAD_RANGE, UNKNOWN_ALIAS and BUSY in that order, else QUEUED: the slot of the named side is WAITING; on an
IDLE, HALTED or STOPPED port with nothing on the bus the transaction begins at once at the address the driver map gives,
and an IDLE port becomes SENDING. -/
def Obligations.DriverPassTakesSlot : Prop :=
  ∀ (r : ManageRecord) (s : State) (sb ab db rb v1 v2 : Byte), s.executes = true → r.params = [sb, ab, db, rb, v1, v2] →
    ((1 < sb.toNat ∨ ab.toNat = 0 ∨ 4 < ab.toNat ∨ 1 < db.toNat) →
      exec (.driverPass r) s = .next (s.answered s 0x0E#8 r .badRange []))
    ∧ ∀ d, sb.toNat = sideCode d → 1 ≤ ab.toNat → ab.toNat ≤ 4 → db.toNat ≤ 1 →
      let p := s.ports.get d
      let q : PassRequest := { chip := ab.toNat, write := decide (db.toNat = 1), register := rb.toNat, value := v1 ++ v2 }
      (chipEntry s.bank.active d ab.toNat = none →
        exec (.driverPass r) s = .next (s.answered s 0x0E#8 r .unknownAlias []))
      ∧ (∀ e, chipEntry s.bank.active d ab.toNat = some e → p.pass ≠ .empty →
          exec (.driverPass r) s = .next (s.answered s 0x0E#8 r .busy []))
      ∧ (∀ e, chipEntry s.bank.active d ab.toNat = some e → p.pass = .empty →
          (p.state = .idle ∨ p.state = .halted ∨ p.state = .stopped) → p.txn = .quiet →
          exec (.driverPass r) s = .next (s.answered
            { s with
              ports := s.ports.set d
                { p with
                  pass := .inProgress q
                  txn := .pass e.address 1 (natField s.bank.active 8 8)
                  state := if p.state = .idle then .sending else p.state } } 0x0E#8 r .queued []))
      ∧ (∀ e, chipEntry s.bank.active d ab.toNat = some e → p.pass = .empty →
          (p.state = .sending ∨ p.state = .halting ∨ p.txn ≠ .quiet) →
          exec (.driverPass r) s = .next (s.answered
            { s with ports := s.ports.set d { p with pass := .waiting q } } 0x0E#8 r .queued []))

/-- STATUS_NOW is answered OK: with a slot free beside the one its own REPLY takes, a STATUS formed now enters the queue
before the REPLY; with none free the STATUS NOW claim waits. -/
def Obligations.StatusNowEntersOrWaits : Prop :=
  ∀ (r : ManageRecord) (s : State), s.executes = true → r.params = [] →
    (4 ≤ s.mgmt.queue.length + 1 →
      exec (.statusNow r) s
        = .next (s.answered { s with mgmt := { s.mgmt with statusClaim := true } } 0x05#8 r .ok []))
    ∧ (s.mgmt.queue.length + 1 < 4 → s.claimWaits = false →
        exec (.statusNow r) s
          = .next (s.answered
              { s with mgmt := { s.mgmt with
                  queue := s.mgmt.queue ++ [.status (s.statusReport .statusNow)] } } 0x05#8 r .ok []))

/-! ### The upstream queue -/

/-- UPSTREAM_FRAME_SENT of a head that is no WARM RESET REPLY takes it out of the queue, and the freed slot goes to the first
waiting claim in the order PASS_RESULT LEFT, PASS_RESULT RIGHT, STATUS NOW, report-now. QUEUE_CLAIM_ENTRY gives one free
slot to the waiting claims in the same order. That the slot is given inside UPSTREAM_FRAME_SENT is log entry 7; that
UPSTREAM_FRAME_SENT on an empty queue and QUEUE_CLAIM_ENTRY without a waiting claim change nothing is log entry 3. -/
def Obligations.FreedSlotGoesToFirstClaim : Prop :=
  (∀ s : State, s.inReset = false → s.mgmt.queue = [] → exec .upstreamFrameSent s = .next s)
  ∧ (∀ s : State, s.inReset = false → s.claimWaits = false → exec .queueClaimEntry s = .next s)
  ∧ (∀ (s : State) (f : UpFrame) (rest : List UpFrame), s.inReset = false → s.mgmt.queue = f :: rest →
      f.warmReply = false → s.claimWaits = false →
      exec .upstreamFrameSent s = .next { s with mgmt := { s.mgmt with queue := rest } })
  ∧ (∀ (s : State) (f : UpFrame) (rest : List UpFrame), s.inReset = false → s.mgmt.queue = f :: rest →
      f.warmReply = false →
      exec .upstreamFrameSent s = exec .queueClaimEntry { s with mgmt := { s.mgmt with queue := rest } })
  ∧ ∀ s : State, s.inReset = false → s.mgmt.queue.length + s.mgmt.reserved = 3 →
      (∀ q result, s.ports.left.pass = .held q result →
        exec .queueClaimEntry s = .next
          { s with
            mgmt := { s.mgmt with queue := s.mgmt.queue ++ [.passResult .left q.chip result] }
            ports := { s.ports with left := { s.ports.left with pass := .empty } } })
      ∧ (∀ q result, (s.ports.left.pass.offer .left).isNone = true → s.ports.right.pass = .held q result →
        exec .queueClaimEntry s = .next
          { s with
            mgmt := { s.mgmt with queue := s.mgmt.queue ++ [.passResult .right q.chip result] }
            ports := { s.ports with right := { s.ports.right with pass := .empty } } })
      ∧ ((s.ports.left.pass.offer .left).isNone = true → (s.ports.right.pass.offer .right).isNone = true →
        s.mgmt.statusClaim = true →
        exec .queueClaimEntry s = .next
          { s with mgmt := { s.mgmt with
              queue := s.mgmt.queue ++ [.status (s.statusReport .statusNow)], statusClaim := false } })
      ∧ ((s.ports.left.pass.offer .left).isNone = true → (s.ports.right.pass.offer .right).isNone = true →
        s.mgmt.statusClaim = false → s.mgmt.reportClaim = true →
        exec .queueClaimEntry s = .next
          { s with mgmt := { s.mgmt with
              queue := s.mgmt.queue ++ [.status (s.statusReport .reportNow)], reportClaim := false } })

/-! ### The Frame Timebase and the output frame event -/

/-- FRAME_TIMER_EXPIRY in the Timebase: the ticks until the expiry pass, no output frame event comes less than 2000 ticks
after the last, the count is loaded with the preload from before a commit of the event, the frame counter rises by 1, and
under EXTERNAL sync the expiry is a flywheel event with SYNC_MISSING, the eighth of which makes SYNC_LOST hold. The track
entries, the held motion record and the ms clock stay. That the ticks pass with the expiry is log entry 2. -/
def Obligations.TimerExpiryInTimebase : Prop :=
  ∀ s : State, s.inReset = false →
    let ticks := max (if s.time.expiryDue = true then 0 else s.time.count + 1) (2000 - s.time.sinceEvent)
    let external := decide (natField s.bank.active 1 1 ≠ 0)
    ∃ t, exec .frameTimerExpiry s = .next t
      ∧ t.time.sinceEvent = 0 ∧ 2000 ≤ s.time.sinceEvent + ticks ∧ t.time.count = natField s.bank.active 1 0
      ∧ t.time.expiryDue = false ∧ t.time.frameCounter = s.time.frameCounter + 1#16
      ∧ t.time.msClock = s.time.msClock ∧ t.time.msTicks = s.time.msTicks + ticks
      ∧ (external = true → t.flag .syncMissing = true)
      ∧ (external = false → t.flag .syncMissing = s.flag .syncMissing)
      ∧ (s.bank.commitPending = false →
          t.time.flywheel = (if external = true then min 8 (s.time.flywheel + 1) else s.time.flywheel)
          ∧ t.time.syncLost = (s.time.syncLost || (external && decide (7 ≤ s.time.flywheel)))
          ∧ (external = true → t.time.strobeActive = s.time.strobeActive ∧ t.time.fsyncDriven = s.time.fsyncDriven)
          ∧ (external = false →
              t.time.strobeActive = decide (0 < min (natField s.bank.active 1 3) (natField s.bank.active 1 0))
              ∧ t.time.strobeLeft = min (natField s.bank.active 1 3) (natField s.bank.active 1 0)
              ∧ t.time.strobeIdle = strobeIdleLevel s.bank.active))
      ∧ t.table.tracks = s.table.tracks ∧ t.motion = s.motion ∧ t.rx = s.rx ∧ t.pending = s.pending

/-- FSYNC_EDGE: not taken under INTERNAL sync or in a direction other than the sync edge, word 2 of TIMEBASE; early with
SYNC_EARLY less than 2000 ticks after the last output frame event; otherwise an output frame event that loads the preload,
clears the flywheel and SYNC_LOST. What the blocks do at it is what they do at the same event by an expiry of the timer: a
pending commit, the blocks' decisions, the composition and the places of the STATUS frames are those of FRAME_TIMER_EXPIRY in
the same state, which differs in the time, in SYNC_MISSING with its report request, and in the ticks that pass with the
expiry (log entry 2). The STATUS frames are formed at the end of the event (log entry 12). -/
def Obligations.EdgesPaceExternalSync : Prop :=
  ∀ (edge : SyncEdge) (s : State), s.inReset = false →
    let taken : SyncEdge := if natField s.bank.active 1 2 = 0 then .rising else .falling
    (natField s.bank.active 1 1 = 0 ∨ edge ≠ taken → exec (.fsyncEdge edge) s = .next s)
    ∧ (natField s.bank.active 1 1 ≠ 0 → edge = taken → s.time.sinceEvent < 2000 →
        exec (.fsyncEdge edge) s = .next (s.raise Flag.syncEarly.mask))
    ∧ (natField s.bank.active 1 1 ≠ 0 → edge = taken → 2000 ≤ s.time.sinceEvent →
        ∃ t u, exec (.fsyncEdge edge) s = .next t ∧ exec .frameTimerExpiry s = .next u
          ∧ t.time.count = natField s.bank.active 1 0 ∧ t.time.sinceEvent = 0 ∧ t.time.flywheel = 0
          ∧ t.time.syncLost = false ∧ t.time.frameCounter = s.time.frameCounter + 1#16
          ∧ t.time.msClock = s.time.msClock ∧ t.time.msTicks = s.time.msTicks
          ∧ t.flag .syncMissing = s.flag .syncMissing
          ∧ t.table.tracks = s.table.tracks ∧ t.motion = s.motion ∧ t.rx = s.rx ∧ t.pending = s.pending
          ∧ t.inReset = false ∧ t.link = u.link ∧ t.bend = u.bend ∧ t.table = u.table ∧ t.windows = u.windows
          ∧ t.composer = u.composer ∧ t.segments = u.segments ∧ t.ports = u.ports ∧ t.bank = u.bank
          ∧ t.sup = { u.sup with lowreqHeld := s.sup.lowreqHeld }
          ∧ t.time.strobeActive = u.time.strobeActive ∧ t.time.strobeIdle = u.time.strobeIdle
          ∧ t.time.fsyncDriven = u.time.fsyncDriven
          ∧ (∀ f, f ≠ .syncMissing → t.flag f = u.flag f)
          ∧ { t.mgmt with queue := u.mgmt.queue, sticky := u.mgmt.sticky, reportRequest := u.mgmt.reportRequest } = u.mgmt
          ∧ t.mgmt.queue.length = u.mgmt.queue.length
          ∧ (t.mgmt.reportRequest = true → u.mgmt.reportRequest = true)
          ∧ (s.bank.commitPending = false → t.mgmt.reportRequest = false)
          ∧ (s.composer.inFlight = none → s.claimLaw = true →
              let used := s.mgmt.queue.length + s.mgmt.reserved
              let now := s.mgmt.reportRequest && decide (used < 4)
              let period := natField t.bank.active 1 5
              let due := decide (period ≠ 0 ∧ (s.time.frameCounter + 1#16).toNat % period = 0)
              let periodic := due && decide (used + (if now = true then 1 else 0) < 4)
              t.mgmt.queue = s.mgmt.queue ++ (if now = true then [.status (t.statusReport .reportNow)] else [])
                ++ (if periodic = true then [.status (t.statusReport .periodic)] else [])))

/-- STROBE_END returns FSYNC to its idle level after the ticks left of the pulse, and does nothing without a pulse;
MS_CLOCK_TICK advances the ms clock by one, modulo 2 to the power 32, after the ticks left of its 1000 (log entry 2). That
STROBE_END without a pulse changes nothing is log entry 3. -/
def Obligations.StrobeEndAndMsTick : Prop :=
  (∀ s : State, s.inReset = false → s.time.strobeActive = false → exec .strobeEnd s = .next s)
  ∧ (∀ s : State, s.inReset = false → s.time.strobeActive = true →
      ∃ t, exec .strobeEnd s = .next t
        ∧ t.time = { s.time with
            count := s.time.count - s.time.strobeLeft
            expiryDue := s.time.expiryDue || decide (s.time.count < s.time.strobeLeft)
            sinceEvent := s.time.sinceEvent + s.time.strobeLeft
            strobeActive := false, strobeLeft := 0
            msTicks := s.time.msTicks + s.time.strobeLeft }
        ∧ t.time.fsyncLevel = (if s.time.fsyncDriven = true then some s.time.strobeIdle else none)
        ∧ t.sup = { s.sup with lowreqHeld := s.sup.lowreqHeld.map (· + s.time.strobeLeft) }
        ∧ { t with time := s.time, sup := s.sup } = s)
  ∧ ∀ s : State, s.inReset = false →
      ∃ t, exec .msClockTick s = .next t
        ∧ t.time = { s.time with
            count := s.time.count - (1000 - s.time.msTicks)
            expiryDue := s.time.expiryDue || decide (s.time.count < 1000 - s.time.msTicks)
            sinceEvent := s.time.sinceEvent + (1000 - s.time.msTicks)
            strobeLeft := s.time.strobeLeft - (1000 - s.time.msTicks)
            msClock := s.time.msClock + 1#32
            msTicks := s.time.msTicks - 1000 }
        ∧ t.sup = { s.sup with lowreqHeld := s.sup.lowreqHeld.map (· + (1000 - s.time.msTicks)) }
        ∧ { t with time := s.time, sup := s.sup } = s

/-- The blocks' decisions at an output frame event of the timer without a commit or a composition in flight: SCENE_STALE
by the last scene time and kept once held, the crowded hold counter and the stream ages after composition took them, the
window lists built only in NORMAL with ADAPTIVE, BEND_INPUT_LOST cleared and the bend kept outside NORMAL and HOLD,
STREAM_STALE by the buffers where a stream is called for, and the inputs composition takes. Where the lists are built, a
candidate's edges are the track's, moved by the prediction over the horizon and by the parallax of the lamp, widened by the
margins and clipped to the lamp; the kept candidates, sorted by left edge, right edge and slot, are joined by one sweep with
the min gap. In TEST these hold the test pattern of each side, formed before the dwell count and the advance of the program;
outside TEST the program stays. That the ticks to the expiry pass with it, in the qualification of a LOWREQ level too, is log
entry 2. -/
def Obligations.EventDecisions : Prop :=
  ∀ s : State, s.inReset = false → s.bank.commitPending = false → s.composer.inFlight = none → s.claimLaw = true →
    let stale := s.sup.sceneStale || (match s.table.lastScene with
      | none => true
      | some last => decide (natField s.bank.active 8 2 < (s.time.msClock - last).toNat))
    let fn := match s.motion.requested with
      | .off => LightFn.off
      | .low => LightFn.low
      | .adaptive => if s.sup.mode = .hold ∨ stale = true then .low else .adaptive
    let builds := decide (s.sup.mode = .normal ∧ fn = .adaptive)
    let held := s.sup.lowreqHeld.map (· + s.time.ticksToExpiry)
    ∃ t x, exec .frameTimerExpiry s = .next t ∧ t.composer.inFlight = some x
      ∧ t.sup.sceneStale = stale ∧ t.sup.mode = s.sup.mode
      ∧ t.table = { s.table with crowdedHold := s.table.crowdedHold - 1 }
      ∧ (∀ d, t.composer.streams.get d
            = { s.composer.streams.get d with age := min 255 ((s.composer.streams.get d).age + 1) })
      ∧ (∀ d, t.windows.get d = if builds = true then buildWindows s.bank.active s.time.msClock d s.table.tracks else [])
      ∧ (builds = true → ∀ d,
          let field := fun k => natField s.bank.active (3 + sideCode d) k
          let signed := fun k => intField s.bank.active (3 + sideCode d) k
          let ofClass := fun (e : Track) k => natField s.bank.active 5 (12 * e.cls.code + k)
          let casting := fun (e : Track) => decide (e.state = .confirmed ∨ e.state = .coasting
            ∨ (e.state = .tentative ∧ ofClass e 3 ≠ 0))
          let h := fun (e : Track) =>
            min 1000 (e.captureAge + (s.time.msClock - e.arrival).toNat + natField s.bank.active 8 0)
          let parallax := fun (e : Track) (offset : Int) => match e.distance with
            | some m => -roundDiv (offset * 573) ((m : Int) * 10)
            | none => 0
          let dx := fun (e : Track) => (match e.rate with
            | some r => roundDiv (r * (h e : Int)) 1000
            | none => 0) + parallax e (signed 16)
          let far := fun (e : Track) => if e.distance = none then field 18 else 0
          let mx := fun (e : Track) => min (ofClass e 7) (ofClass e 4 + e.misses * ofClass e 6)
            + (if e.rate = none then ofClass e 8 else 0) + far e
          let my := fun (e : Track) => ofClass e 5 + far e
          let edges := fun (e : Track) =>
            ({ left := max (signed 3) (e.left + dx e - mx e)
               right := min (signed 3 + (field 1 : Int) * (field 2 : Int)) (e.right + dx e + mx e)
               bottom := max (-500) (e.bottom + parallax e (signed 17) - my e)
               top := min 1000 (match e.top with
                 | some top => top + parallax e (signed 17) + my e
                 | none => 1000)
               residual := ofClass e 9
               cls := e.cls } : Window)
          let kept := ((s.table.tracks.filter casting).map edges).filter
            (fun w => decide (w.left < w.right) && decide (w.bottom < w.top))
          let sweeps := fun (ws : List Window) (w : Window) => match ws with
            | [] => [w]
            | c :: done =>
              if w.left - c.right < (natField s.bank.active 8 1 : Int) then
                { left := c.left, right := max c.right w.right, bottom := min c.bottom w.bottom, top := max c.top w.top,
                  residual := min c.residual w.residual,
                  cls := if w.residual < c.residual then w.cls else c.cls } :: done
              else w :: c :: done
          ∃ sorted : List Window, sorted.Perm kept
            ∧ sorted.Pairwise (fun v w => v.left < w.left ∨ (v.left = w.left ∧ v.right ≤ w.right))
            ∧ (∀ v w, [v, w].Sublist kept → v.left = w.left → v.right = w.right → [v, w].Sublist sorted)
            ∧ t.windows.get d = (sorted.foldl sweeps []).reverse)
      ∧ (s.sup.mode = .fallback ∨ s.sup.mode = .dark ∨ s.sup.mode = .test →
          t.bend = { s.bend with inputLost := false })
      ∧ (s.sup.mode = .normal ∨ s.sup.mode = .hold →
          (∀ d, t.bend.theta.get d
              = slew (bendStep s.bank.active) (s.bend.theta.get d) (bendTargetOf s.bank.active s.motion d))
          ∧ (∀ d, t.bend.shift.get d = columnShift s.bank.active d (t.bend.theta.get d))
          ∧ t.bend.inputLost
              = (!s.motion.speedValid || (!s.motion.yawValid && !s.motion.wheelValid)))
      ∧ (t.composer.streamStale = true ↔
          s.sup.mode = .normal ∧ fn = .adaptive ∧ s.motion.source = .streamed
            ∧ ∃ d, (s.composer.streams.get d).valid = false
                ∨ natField s.bank.active 8 3 < (s.composer.streams.get d).age)
      ∧ (s.sup.mode ≠ .test → t.sup = { s.sup with sceneStale := stale, lowreqHeld := held })
      ∧ (∀ prog cur, s.sup.mode = .test → s.sup.program = some prog → s.sup.current = some cur →
          let next := if prog.autoAdvance = true then nextPattern prog.enabled cur else cur
          let sweep := if cur = .columnWalk then max (colCount s.bank.active .left) (colCount s.bank.active .right)
            else max (rowCount s.bank.active .left) (rowCount s.bank.active .right)
          let walks := decide (cur = .columnWalk ∨ cur = .rowWalk)
          (∀ d n, n < 128 →
            let r := n / colCount s.bank.active d
            let c := n % colCount s.bank.active d
            let v := match cur with
              | .solid => prog.level
              | .checker => if (r / prog.scale + c / prog.scale) % 2 = 0 then prog.level else 0
              | .columnWalk => if c = s.sup.walk then prog.level else 0
              | .rowWalk => if r = s.sup.walk then prog.level else 0
              | .stored => natField s.bank.active (16 + prog.storedIndex) (128 * sideCode d + n)
            (x.test.get d)[n]? = some
              (if segmentCount s.bank.active d ≤ n then 0 else if prog.invert = true then 1023 - v else v))
          ∧ t.sup = { s.sup with
              sceneStale := stale
              lowreqHeld := held
              dwell := if s.sup.dwell + 1 = prog.dwellFrames then 0 else s.sup.dwell + 1
              walk := if s.sup.dwell + 1 ≠ prog.dwellFrames then s.sup.walk
                else if walks = true then (if s.sup.walk + 1 < sweep then s.sup.walk + 1 else 0)
                else if prog.autoAdvance = true then 0 else s.sup.walk
              current := if s.sup.dwell + 1 ≠ prog.dwellFrames ∨ (walks = true ∧ s.sup.walk + 1 < sweep) then some cur
                else some next })
      ∧ x.active = s.bank.active ∧ x.mode = s.sup.mode ∧ x.function = fn ∧ x.lowIndex = s.motion.lowIndex
      ∧ x.adaptiveIndex = s.motion.adaptiveIndex ∧ x.source = s.motion.source ∧ x.shift = t.bend.shift
      ∧ x.windows = t.windows ∧ x.crowded = s.table.crowdedHold ∧ x.streams = s.composer.streams
      ∧ (∀ d, x.derate.get d = (s.ports.get d).derate) ∧ x.number = s.time.frameCounter + 1#16
      ∧ t.segments = s.segments ∧ t.ports = s.ports ∧ t.link = s.link ∧ t.bank = s.bank

/-- The STATUS frames of an output frame event of the timer with no composition in flight: a report request that stood when
the event began is cleared and makes the report-now claim, whose STATUS enters a free slot at once or waits; then the
periodic STATUS enters if the frame counter is a multiple of the status period and a slot is still free, and is skipped
otherwise. The request stands afterwards only by the flags of the event itself: with no commit pending by SYNC_MISSING, with
a commit rejected also by COMMIT_REJECTED, each if enabled; never by the request that stood. That both frames are formed at
the end of the event is log entry 12. -/
def Obligations.EventFormsStatusFrames : Prop :=
  ∀ s : State, s.inReset = false → s.composer.inFlight = none → s.claimLaw = true →
    ∃ t, exec .frameTimerExpiry s = .next t
      ∧ (let used := s.mgmt.queue.length + s.mgmt.reserved
         let now := s.mgmt.reportRequest && decide (used < 4)
         let period := natField t.bank.active 1 5
         let due := decide (period ≠ 0 ∧ (s.time.frameCounter + 1#16).toNat % period = 0)
         let periodic := due && decide (used + (if now = true then 1 else 0) < 4)
         t.mgmt.queue = s.mgmt.queue ++ (if now = true then [.status (t.statusReport .reportNow)] else [])
             ++ (if periodic = true then [.status (t.statusReport .periodic)] else [])
           ∧ t.mgmt.reportClaim = ((s.mgmt.reportClaim || s.mgmt.reportRequest) && decide (4 ≤ used))
           ∧ t.mgmt.statusClaim = s.mgmt.statusClaim ∧ t.mgmt.manage = s.mgmt.manage)
      ∧ (let enable := bankRead s.bank.active 8 11
         let missing := decide (natField s.bank.active 1 1 ≠ 0) && enable.getLsbD 4
         (s.bank.commitPending = false → t.mgmt.reportRequest = missing)
           ∧ (s.bank.commitPending = true → bankFault s.bank.staged ≠ none →
               t.mgmt.reportRequest = (enable.getLsbD 8 || missing)))
      ∧ ∀ u, exec .frameTimerExpiry { s with mgmt := { s.mgmt with reportRequest := false } } = .next u →
          t.mgmt.reportRequest = u.mgmt.reportRequest

/-- A commit pending at an output frame event of the timer: when every word of STAGED passes its checks, STAGED becomes
ACTIVE, the outcome is APPLIED and the count rises; otherwise the first failing word, by table id and then offset, is the
outcome REJECTED, both copies and the count are kept and COMMIT_REJECTED is set. Either way commit pending is cleared. The
checks of the LINK words 0, 1 and 5, of the TIMEBASE preload, of the GEOMETRY counts, span and rows, of the DRIVER_MAP entries
and of the levels of PATTERN and FALLBACK are spelled out. An applied commit acts at once: the Link Monitor clamps E into the
new band and takes the expiries that the gap then gives, the lapse first, with the mode decided again; each chip record is
kept, re-initialised or made UNUSED by the new driver map; the bend angles are clamped to the new θmax before the stages of
the event; a change of sync source takes the FSYNC line and the flywheel with it; and the timer's reload is the old preload.
`lapseTaken` and `lossTaken` are log entry 23. -/
def Obligations.CommitAppliedOrRejected : Prop :=
  (∀ b : BankCopy,
    (wordOk b 0 0 = true ↔ 5 ≤ natField b 0 0 ∧ natField b 0 0 ≤ 200)
    ∧ (wordOk b 0 1 = true ↔ natField b 0 1 ≤ 50 ∧ natField b 0 1 < natField b 0 0)
    ∧ (wordOk b 0 5 = true ↔ 100 ≤ natField b 0 5 ∧ natField b 0 5 ≤ 2000
        ∧ (natField b 0 0 + natField b 0 1) * natField b 0 4 < natField b 0 5)
    ∧ (wordOk b 1 0 = true ↔ 1999 ≤ natField b 1 0 ∧ natField b 1 0 ≤ 49999)
    ∧ ∀ d : Side,
      let g := 3 + sideCode d
      let rows := natField b g 0
      let segments := rows * natField b g 1
      (wordOk b g 0 = true ↔ 1 ≤ rows ∧ rows ≤ 4)
      ∧ (wordOk b g 1 = true ↔ 8 ≤ natField b g 1 ∧ natField b g 1 ≤ 32)
      ∧ (wordOk b g 2 = true ↔ 50 ≤ natField b g 2 ∧ natField b g 2 ≤ 400)
      ∧ (wordOk b g 3 = true ↔ -3000 ≤ intField b g 3 ∧ intField b g 3 ≤ 3000
        ∧ intField b g 3 + (natField b g 1 : Int) * (natField b g 2 : Int) ≤ 3000)
      ∧ (∀ r, r < 4 →
          (rows ≤ r → wordOk b g (4 + 2 * r) = true ∧ wordOk b g (5 + 2 * r) = true)
          ∧ (r < rows →
              (wordOk b g (4 + 2 * r) = true ↔ -500 ≤ intField b g (4 + 2 * r) ∧ intField b g (4 + 2 * r) ≤ 1000
                ∧ (0 < r → intField b g (4 + 2 * r) ≤ intField b g (5 + 2 * (r - 1))))
              ∧ (wordOk b g (5 + 2 * r) = true ↔ -500 ≤ intField b g (5 + 2 * r) ∧ intField b g (5 + 2 * r) ≤ 1000
                ∧ intField b g (5 + 2 * r) < intField b g (4 + 2 * r))))
      ∧ (∀ k, k < 8 →
          let word := fun j o => natField b 7 (4 * j + o)
          let earlier := fun j => j < k ∧ word j 1 ≠ 0 ∧ word j 0 = word k 0
          (word k 1 = 0 → ∀ o, o < 4 → wordOk b 7 (4 * k + o) = true)
          ∧ (word k 1 ≠ 0 →
              (wordOk b 7 (4 * k) = true ↔ word k 0 ≤ 1)
              ∧ (wordOk b 7 (4 * k + 1) = true ↔ word k 1 ≤ 4 ∧ ∀ j, earlier j → word j 1 ≠ word k 1)
              ∧ (wordOk b 7 (4 * k + 2) = true ↔ 1 ≤ word k 2 ∧ word k 2 ≤ 127 ∧ ∀ j, earlier j → word j 2 ≠ word k 2)
              ∧ (word k 0 = sideCode d →
                  (wordOk b 7 (4 * k + 3) = true ↔ 1 ≤ word k 3 % 256 ∧ word k 3 % 256 ≤ 32
                    ∧ word k 3 / 256 + word k 3 % 256 ≤ segments
                    ∧ ∀ j, earlier j →
                        word j 3 / 256 + word j 3 % 256 ≤ word k 3 / 256
                        ∨ word k 3 / 256 + word k 3 % 256 ≤ word j 3 / 256))))
      ∧ ∀ id n, 16 ≤ id → id ≤ 32 → n < 128 →
          (wordOk b id (128 * sideCode d + n) = true ↔ natField b id (128 * sideCode d + n) ≤ 1023
            ∧ (segments ≤ n → natField b id (128 * sideCode d + n) = 0)))
  ∧ ∀ s : State, s.inReset = false → s.bank.commitPending = true →
    ∃ t, exec .frameTimerExpiry s = .next t ∧ t.bank.commitPending = false ∧ t.bank.staged = s.bank.staged
      ∧ ((∀ id ∈ tableIds, ∀ off, off < tableSize id → wordOk s.bank.staged id off = true) →
          t.bank.active = s.bank.staged ∧ t.bank.outcome = .applied
          ∧ t.bank.commitCount = s.bank.commitCount + 1#16
          ∧ t.flag .commitRejected = s.flag .commitRejected
          ∧ (∀ d, (t.ports.get d).chips.length = (s.ports.get d).chips.length)
          ∧ (∀ d i r, (s.ports.get d).chips[i]? = some r →
              (t.ports.get d).chips[i]? = some
                (match chipEntry s.bank.staged d (i + 1) with
                  | none => if r.state = .unused then r else .fresh none
                  | some e =>
                    if r.address = some e.address ∧ chipEntry s.bank.active d (i + 1) ≠ none then r
                    else .fresh (some e.address)))
          ∧ (let nominal := natField s.bank.staged 0 0
             let tolerance := natField s.bank.staged 0 1
             let e := max (nominal - tolerance) (min (nominal + tolerance) s.link.estimate)
             let gap := (s.time.msClock - s.link.lastArrival).toNat
             let lapses := !s.link.lapseTaken && decide (e * natField s.bank.staged 0 4 < gap)
             let loses := !s.link.lossTaken && decide (natField s.bank.staged 0 5 < gap)
             let lapsed : LinkMonitor := match s.link.state, lapses with
               | .up, true => { s.link with estimate := e, state := .lapsed, lapseTaken := true }
               | .settling, true => { s.link with estimate := e, stable := 0, lapseTaken := true }
               | _, _ => { s.link with estimate := e }
             let down := (lapsed.state == .settling || lapsed.state == .lapsed) && loses
             t.link = (if down = true then { lapsed with state := .down, stable := 0, lossTaken := true } else lapsed)
               ∧ t.flag .linkLapsed = (s.flag .linkLapsed || (s.link.state == .up && lapses))
               ∧ t.flag .linkDown = (s.flag .linkDown || down)
               ∧ t.sup.mode = (if t.link.state = s.link.state then s.sup.mode
                   else if down = false then .hold else if s.sup.lowreqLevel = true then .fallback else .dark))
          ∧ (∀ d,
              let most : Int := natField s.bank.staged 2 5
              let clamped := max (-most) (min most (s.bend.theta.get d))
              (t.sup.mode = .normal ∨ t.sup.mode = .hold →
                t.bend.theta.get d = slew (bendStep s.bank.staged) clamped (bendTargetOf s.bank.staged s.motion d)
                ∧ t.bend.shift.get d = columnShift s.bank.staged d (t.bend.theta.get d))
              ∧ (t.sup.mode = .fallback ∨ t.sup.mode = .dark ∨ t.sup.mode = .test →
                  t.bend.theta.get d = (if t.sup.mode = s.sup.mode then clamped else 0)
                  ∧ t.bend.shift.get d = (if t.sup.mode = s.sup.mode then s.bend.shift.get d else 0)))
          ∧ t.time.count = natField s.bank.active 1 0
          ∧ (natField s.bank.active 1 1 = 0 → natField s.bank.staged 1 1 ≠ 0 →
              t.time.fsyncDriven = false ∧ t.time.strobeActive = false ∧ t.time.flywheel = 0 ∧ t.time.syncLost = false)
          ∧ (natField s.bank.active 1 1 ≠ 0 → natField s.bank.staged 1 1 = 0 →
              t.time.fsyncDriven = true ∧ t.time.strobeActive = false ∧ t.time.flywheel = 0 ∧ t.time.syncLost = false
              ∧ t.time.strobeIdle = (if natField s.bank.staged 1 4 = 0 then .low else .high)))
      ∧ ∀ id ∈ tableIds, ∀ off, off < tableSize id → wordOk s.bank.staged id off = false →
          (∀ j ∈ tableIds, ∀ k, k < tableSize j → (j < id ∨ (j = id ∧ k < off)) → wordOk s.bank.staged j k = true) →
          t.bank.active = s.bank.active ∧ t.bank.outcome = .rejected id off
          ∧ t.bank.commitCount = s.bank.commitCount ∧ t.flag .commitRejected = true

/-! ### Composition and transition -/

/-- COMPOSITION_COMPLETE hands each side's target frame to its Transition Stage, which steps all 128 records once, and the
output frame to the side's port; without a composition in progress nothing happens (log entry 3). An IDLE port starts the
frame, as `Port.frameArrives` says (FrameStartsOnIdlePort), a HALTED or STOPPED port discards it, a SENDING or HALTING one
makes it pending with FRAME_SUPERSEDED where it replaces a pending frame. -/
def Obligations.CompositionHandsFramesOn : Prop :=
  (∀ s : State, s.inReset = false → s.composer.inFlight = none → exec .compositionComplete s = .next s)
  ∧ ∀ (s : State) (x : CompositionInputs), s.inReset = false → s.composer.inFlight = some x →
      (∀ d, (s.segments.get d).length = 128) →
      ∃ t, exec .compositionComplete s = .next t
        ∧ t.composer.inFlight = none ∧ t.composer.streams = s.composer.streams
        ∧ (∀ d n, n < 128 →
            (t.composer.targets.get d).levels[n]? = some (targetLevel x d n)
            ∧ (t.composer.targets.get d).shadowed[n]? = some (targetFlag x d n)
            ∧ (t.segments.get d)[n]?
                = ((s.segments.get d)[n]?).map (SegmentRecord.step x.active x.mode (targetLevel x d n) (targetFlag x d n)))
        ∧ (∀ d, ((s.ports.get d).state = .idle → t.ports.get d =
              ((s.ports.get d).frameArrives s.bank.active
                { side := d, levels := (t.segments.get d).map SegmentRecord.level, number := x.number }).port)
            ∧ ((s.ports.get d).state = .halted ∨ (s.ports.get d).state = .stopped → t.ports.get d = s.ports.get d)
            ∧ ((s.ports.get d).state = .sending ∨ (s.ports.get d).state = .halting →
                t.ports.get d = { s.ports.get d with
                  pendingFrame := some
                    { side := d, levels := (t.segments.get d).map SegmentRecord.level, number := x.number } })
            ∧ t.flag (.frameSuperseded d)
                = (s.flag (.frameSuperseded d)
                    || (((s.ports.get d).state == .sending || (s.ports.get d).state == .halting)
                        && (s.ports.get d).pendingFrame.isSome)))
        ∧ t.inReset = false ∧ t.rx = s.rx ∧ t.link = s.link ∧ t.motion = s.motion ∧ t.bend = s.bend
        ∧ t.table = s.table ∧ t.windows = s.windows ∧ t.sup = s.sup ∧ t.time = s.time ∧ t.bank = s.bank
        ∧ t.mgmt.queue = s.mgmt.queue ∧ t.pending = s.pending

/-- A frame that reaches an IDLE port starts: an empty transfer list completes it at once with the derate condition
cleared; otherwise the port is SENDING with the first item's first attempt. The list holds the driver map's entries of the
side in alias order, without an UNREACHABLE alias unless the frame number is a multiple of 16, the last marked LAST. -/
def Obligations.FrameStartsOnIdlePort : Prop :=
  ∀ (b : BankCopy) (f : OutputFrame) (p : Port), p.state = .idle →
    let taken := [1, 2, 3, 4].filterMap (fun chip => (chipEntry b f.side chip).bind (fun e =>
      if (p.chip chip).any (fun r => decide (r.state = .unreachable)) = true ∧ f.number.toNat % 16 ≠ 0 then none
      else some (chip, e.address, e.first, e.count)))
    let q := (p.frameArrives b f).port
    (p.frameArrives b f).mask = 0#16 ∧ q.chips = p.chips ∧ q.pass = p.pass
    ∧ (taken = [] → q = { p with inFlight := none, warningSeen := false, derate := false })
    ∧ (taken ≠ [] → q.state = .sending ∧ q.warningSeen = false ∧ q.derate = p.derate
        ∧ ∃ items, q.inFlight = some { frame := f, items := items, position := 1 }
          ∧ items.map (fun it => (it.chip, it.address, it.first, it.count)) = taken
          ∧ items.map TransferItem.last = (List.range items.length).map (fun i => decide (i + 1 = items.length))
          ∧ ∃ it, items.head? = some it ∧ q.txn = .item it 1 (natField b 8 9))

/-- Target frames that do not depend on the bend, the windows or the caps: in DARK every target is 0; in FALLBACK it is the
FALLBACK table's level, under the derate level while the side's derate condition holds; in TEST it is the test pattern;
unused positions are 0 and every shadowed flag is clear in these modes. -/
def Obligations.TargetsOfDarkFallbackTest : Prop :=
  ∀ (x : CompositionInputs) (d : Side) (n : Nat),
    (segmentCount x.active d ≤ n → targetLevel x d n = 0 ∧ targetFlag x d n = false)
    ∧ (n < segmentCount x.active d →
      (x.mode = .dark → targetLevel x d n = 0)
      ∧ (x.mode = .fallback → targetLevel x d n =
          (if x.derate.get d = true then min (natField x.active 32 (128 * sideCode d + n)) (natField x.active 8 6)
            else natField x.active 32 (128 * sideCode d + n)))
      ∧ (x.mode = .test → targetLevel x d n = (x.test.get d).getD n 0))
    ∧ (x.mode ≠ .normal → targetFlag x d n = false)

/-- In NORMAL with ADAPTIVE a segment's shadowed flag is set exactly when a window of its side covers it, and its target is
the smallest of the shifted base value, the residuals of the covering windows, the crowded cap on a HIGH row while the
counter taken is above 0, and the derate level while the side's derate condition holds. In NORMAL and HOLD every other
function's target is the shifted base value under the derate level alone. The base row is all zero for OFF, the low pattern
for LOW, and for ADAPTIVE in NORMAL the side's stream where one is called for and fresh, else the adaptive pattern. Segment n
is row n / C, column n mod C. A window covers a segment by the four inequalities of R76. -/
def Obligations.AdaptiveTargetIsSmallestLimit : Prop :=
  (∀ (b : BankCopy) (d : Side) (w : Window) (r c : Nat),
    let g := 3 + sideCode d
    let width : Int := natField b g 2
    (covers b d w r c = true ↔
      w.left < intField b g 3 + ((c : Int) + 1) * width ∧ intField b g 3 + (c : Int) * width < w.right
      ∧ w.bottom < intField b g (4 + 2 * r) ∧ intField b g (5 + 2 * r) < w.top)
    ∧ (rowHigh b d r = true ↔ natField b g (12 + r) ≠ 0)
    ∧ colCount b d = natField b g 1 ∧ segmentCount b d = natField b g 0 * natField b g 1) ∧
  (∀ (x : CompositionInputs) (d : Side) (n : Nat),
    let half := fun index => natField x.active (16 + index) (128 * sideCode d + n)
    let stream := x.streams.get d
    (x.mode = .normal ∨ x.mode = .hold →
      (x.function = .off → baseLevel x d n = 0) ∧ (x.function = .low → baseLevel x d n = half x.lowIndex))
    ∧ (x.mode = .normal → x.function = .adaptive →
      (x.source = .streamed → stream.valid = true → stream.age ≤ natField x.active 8 3 →
        baseLevel x d n = stream.levels.getD n 0)
      ∧ (x.source = .stored ∨ stream.valid = false ∨ natField x.active 8 3 < stream.age →
          baseLevel x d n = half x.adaptiveIndex))
    ∧ (n < segmentCount x.active d →
        targetLevel x d n = segmentTarget x d (n / colCount x.active d) (n % colCount x.active d)
        ∧ targetFlag x d n = shadowedAt x d (n / colCount x.active d) (n % colCount x.active d)))
  ∧ (∀ (x : CompositionInputs) (d : Side) (r c : Nat), x.mode = .normal ∨ x.mode = .hold →
      let row := fun k => baseLevel x d (r * colCount x.active d + k)
      bentLevel x d r c = shiftedValue row (colCount x.active d) (x.shift.get d) c
      ∧ (x.mode = .hold ∨ x.function ≠ .adaptive →
          segmentTarget x d r c
              = (if x.derate.get d = true then min (bentLevel x d r c) (natField x.active 8 6) else bentLevel x d r c)
          ∧ shadowedAt x d r c = false))
  ∧ ∀ (x : CompositionInputs) (d : Side) (r c v : Nat), x.mode = .normal → x.function = .adaptive →
    (shadowedAt x d r c = true ↔ ∃ w ∈ x.windows.get d, covers x.active d w r c = true)
    ∧ (v ≤ segmentTarget x d r c ↔
        v ≤ bentLevel x d r c
        ∧ (∀ w ∈ x.windows.get d, covers x.active d w r c = true → v ≤ w.residual)
        ∧ (0 < x.crowded → rowHigh x.active d r = true → v ≤ natField x.active 8 5)
        ∧ (x.derate.get d = true → v ≤ natField x.active 8 6))

/-- The bend shift interpolates: the value at column c is the weighted mean of the base values at k and k + 1, rounded half
up, where 16c − s16 = 16k + f and f counts the sixteenths; a point left of column 0 takes the first base value, and one at or
beyond the last column the last. So a shift of 0 gives the row itself, a shifted value lies between the least and the
greatest base value of its row, and a shift of a whole lamp width gives the edge value at every column. -/
def Obligations.ShiftInterpolatesRow : Prop :=
  ∀ (bp : Nat → Nat) (cols c : Nat) (s16 : Int), 0 < cols → c < cols →
    (∀ k f : Nat, 16 * (c : Int) - s16 = 16 * (k : Int) + f → f < 16 → k + 1 < cols →
      2 * (16 * shiftedValue bp cols s16 c) ≤ 2 * ((16 - f) * bp k + f * bp (k + 1)) + 16
      ∧ 2 * ((16 - f) * bp k + f * bp (k + 1)) + 16 < 2 * (16 * (shiftedValue bp cols s16 c + 1)))
    ∧ (16 * (c : Int) - s16 < 0 → shiftedValue bp cols s16 c = bp 0)
    ∧ (16 * ((cols : Int) - 1) ≤ 16 * (c : Int) - s16 → shiftedValue bp cols s16 c = bp (cols - 1))
    ∧ shiftedValue bp cols 0 c = bp c
    ∧ (∀ lo hi, (∀ k, k < cols → lo ≤ bp k ∧ bp k ≤ hi) →
        lo ≤ shiftedValue bp cols s16 c ∧ shiftedValue bp cols s16 c ≤ hi)
    ∧ (16 * (cols : Int) ≤ s16 → shiftedValue bp cols s16 c = bp 0)
    ∧ (s16 ≤ -16 * (cols : Int) → shiftedValue bp cols s16 c = bp (cols - 1))

/-- The step of a segment: in TEST the level is the target at once, with no hold; in every other mode a segment that leaves
its shadows takes the release hold, one in a shadow has none, a fall moves by the fall step at most, a rise waits while
the hold runs and then moves by the rise step, the fallback rise step in FALLBACK, and never past the target. -/
def Obligations.SegmentStepMovesToTarget : Prop :=
  ∀ (b : BankCopy) (mode : BeamMode) (target : Nat) (flag : Bool) (s : SegmentRecord),
    let t := s.step b mode target flag
    let rise := if mode = .fallback then natField b 6 2 else natField b 6 1
    let hold := if flag = true then 0 else if s.lastFlag = true then natField b 6 3 else s.hold
    t.lastFlag = flag
    ∧ (mode = .test → t.level = target ∧ t.hold = 0)
    ∧ (mode ≠ .test →
        (target < s.level → t.level = max target (s.level - natField b 6 0) ∧ t.hold = hold)
        ∧ (s.level < target → 0 < hold → t.level = s.level ∧ t.hold = hold - 1)
        ∧ (s.level < target → hold = 0 → t.level = min target (s.level + rise) ∧ t.hold = 0)
        ∧ (target = s.level → t.level = s.level ∧ t.hold = hold)
        ∧ s.level - natField b 6 0 ≤ t.level ∧ t.level ≤ s.level + rise)

/-! ### The bend -/

/-- The arithmetic of the stages. Rounding is half away from zero: each rounded quotient is within half a unit of the exact
one and an exact half goes away from zero. The effective yaw rate is the steering rate for α = 256 and the measured rate
for α = 0, and lies within ±32767. Stage 5 moves an angle toward its target by at most the step and reaches a constant
target exactly at the event whose number is the distance divided by the step, rounded up. The targets are 0 where the table
of R29 gives 0, and otherwise those of the stages 1 to 4 under its α: the steering rate, the blend, the preview angle, and for
each side the gain of the inner lamp on the side of the sign of the angle and of the outer lamp on the other, clamped to θmax.
Stage 6 converts an angle into sixteenths of a column within a lamp width. -/
def Obligations.BendStageArithmetic : Prop :=
  (∀ n d : Int, 0 < d →
    2 * (roundDiv n d * d - n) ≤ d ∧ -d ≤ 2 * (roundDiv n d * d - n)
    ∧ (2 * (roundDiv n d * d - n) = d → 0 < n) ∧ (2 * (roundDiv n d * d - n) = -d → n < 0))
  ∧ (∀ (alpha ws wm : Int), 0 ≤ alpha → alpha ≤ 256 → ws.natAbs ≤ 32767 → wm.natAbs ≤ 12000 →
      effectiveRate 256 ws wm = ws ∧ effectiveRate 0 ws wm = wm ∧ (effectiveRate alpha ws wm).natAbs ≤ 32767)
  ∧ (∀ (step : Nat) (previous target : Int), 0 < step →
    (slew step previous target - previous).natAbs ≤ step
    ∧ ((target - previous).natAbs ≤ step → slew step previous target = target)
    ∧ (∀ n : Nat, (fun p => slew step p target)^[n] previous = target ↔ (target - previous).natAbs ≤ n * step))
  ∧ (∀ (b : BankCopy) (m : Motion) (d : Side),
      let param : Nat → Int := fun k => natField b 2 k
      (m.speedValid = false ∨ (m.yawValid = false ∧ m.wheelValid = false) ∨ m.speed < natField b 2 7 →
        bendTargetOf b m d = 0)
      ∧ (m.speedValid = true → (m.yawValid = true ∨ m.wheelValid = true) → natField b 2 7 ≤ m.speed →
          let alpha : Int := if m.wheelValid = false then 0 else if m.yawValid = false then 256 else param 1
          let steering := max (-32767) (min 32767 (roundDiv ((m.speed : Int) * m.wheel * 250) (9 * param 0)))
          let effective := roundDiv (alpha * steering + (256 - alpha) * m.yaw) 256
          let preview := roundDiv (param 2 * effective) 2000
          let inner : Side := if 0 ≤ preview then .right else .left
          let gain := if d = inner then param 3 else param 4
          bendTargetOf b m d = max (-param 5) (min (param 5) (roundDiv (preview * gain) 256))))
  ∧ ∀ (b : BankCopy) (d : Side) (theta : Int),
      let most : Int := 16 * (natField b (3 + sideCode d) 1 : Int)
      columnShift b d theta
        = max (-most) (min most (roundDiv (theta * 16) (natField b (3 + sideCode d) 2 : Int)))

/-! ### The lamp buses -/

/-- SEGMENT_WRITE_ACK that answers the item in progress: the record of the item's alias, where it has the item's address,
takes the answer's status and fault map, no failed frames and ONLINE; a warning sets the derate condition and the warning
seen; THERMAL_STOP is set where indicated; the next item begins. At the LAST item the frame is complete and the derate
condition is cleared unless a warning was seen; the port then goes on by the steps 2 to 4 of R99, which `Port.Proceeds` spells
out: a WAITING pass-through before a pending frame, FAILED where a commit has taken its alias out of the map, then a pending
frame, then IDLE; HALTED in TEST where it was HALTING, the pending frame discarded; STOPPED as it was. So does a STOPPED port
at any item's end, its frame staying in flight. -/
def Obligations.SegmentAckAnswersItem : Prop :=
  ∀ (a : SegmentAck) (s : State) (it : TransferItem) (n timeout : Nat), s.inReset = false → s.claimLaw = true →
    a.late = false → (s.ports.get a.side).txn = .item it n timeout → a.address = it.address →
    let p := s.ports.get a.side
    ∃ t, exec (.segmentWriteAck a) s = .next t
      ∧ (t.ports.get a.side).chips = p.chips.modify (it.chip - 1) (fun r =>
          if r.address = some it.address then
            { state := .online, address := r.address, failed := 0, warn := a.thermalWarn, stop := a.thermalStop,
              rxCrc := a.rxCrc, faults := a.faults }
          else r)
      ∧ (∀ d, d ≠ a.side → t.ports.get d = s.ports.get d)
      ∧ t.flag (.thermalStop a.side) = (s.flag (.thermalStop a.side) || a.thermalStop)
      ∧ (∀ f next, it.last = false → p.state ≠ .stopped → p.inFlight = some f → f.items[f.position]? = some next →
          t.ports.get a.side = { p with
            chips := (t.ports.get a.side).chips
            derate := p.derate || a.thermalWarn, warningSeen := p.warningSeen || a.thermalWarn
            txn := .item next 1 (natField s.bank.active 8 9)
            inFlight := some { f with position := f.position + 1 }, remainder := p.remainder.tail })
      ∧ (it.last = true → p.state = .sending → p.pendingFrame = none → p.pass.isWaiting = false →
          t.ports.get a.side = { p with
            chips := (t.ports.get a.side).chips
            derate := (p.derate || a.thermalWarn) && (p.warningSeen || a.thermalWarn)
            warningSeen := p.warningSeen || a.thermalWarn
            txn := .quiet, inFlight := none, state := .idle })
      ∧ (let test := decide (s.sup.mode = .test)
         let room := decide (s.mgmt.queue.length + s.mgmt.reserved < 4)
         let done : Port := { p with
           chips := (t.ports.get a.side).chips, warningSeen := p.warningSeen || a.thermalWarn, txn := .quiet }
         let added := t.mgmt.queue.drop s.mgmt.queue.length
         t.mgmt.queue = s.mgmt.queue ++ added
         ∧ ((∀ r, p.pass ≠ .waiting r) → added = [])
         ∧ (it.last = true →
             Port.Proceeds s.bank.active a.side test room
               { done with
                 derate := (p.derate || a.thermalWarn) && (p.warningSeen || a.thermalWarn)
                 inFlight := none, remainder := if p.state = .stopped then [] else p.remainder }
               (t.ports.get a.side) added)
         ∧ (it.last = false → p.state = .stopped →
             Port.Proceeds s.bank.active a.side test room { done with derate := p.derate || a.thermalWarn }
               (t.ports.get a.side) added))
      ∧ t.inReset = false ∧ t.rx = s.rx ∧ t.link = s.link ∧ t.motion = s.motion ∧ t.bend = s.bend
      ∧ t.table = s.table ∧ t.windows = s.windows ∧ t.composer = s.composer ∧ t.segments = s.segments
      ∧ t.sup = s.sup ∧ t.time = s.time ∧ t.bank = s.bank ∧ t.pending = s.pending

/-- REGISTER_ACK that answers the pass-through in progress gives OK with its value: with a queue slot free its PASS_RESULT
enters at once and the slot is EMPTY, otherwise the result is held. A port that a resume left with items of its frame begins
the next of them; otherwise a SENDING or HALTING port goes on by the steps 2 and 3 of R99 (`Port.Proceeds`: a pending frame,
IDLE or HALTED), and a HALTED or STOPPED one keeps its state. No chip record and no flag changes. -/
def Obligations.RegisterAckGivesResult : Prop :=
  ∀ (a : RegisterAck) (s : State) (address n timeout : Nat) (q : PassRequest), s.inReset = false → s.claimLaw = true →
    a.late = false → (s.ports.get a.side).txn = .pass address n timeout → a.address = address →
    (s.ports.get a.side).pass = .inProgress q →
    let p := s.ports.get a.side
    let room := decide (s.mgmt.queue.length + s.mgmt.reserved < 4)
    let slot : PassSlot := if room = true then .empty else .held q (some a.value)
    ∃ t, exec (.registerAck a) s = .next t
      ∧ (t.ports.get a.side).chips = p.chips
      ∧ (∀ d, d ≠ a.side → t.ports.get d = s.ports.get d)
      ∧ (p.inFlight = none → p.state = .sending → p.pendingFrame = none →
          t.ports.get a.side = { p with txn := .quiet, pass := slot, state := .idle })
      ∧ (p.state = .halted ∨ p.state = .stopped → t.ports.get a.side = { p with txn := .quiet, pass := slot })
      ∧ (p.state = .sending ∨ p.state = .halting → p.inFlight = none →
          Port.Proceeds s.bank.active a.side (decide (s.sup.mode = .test)) room { p with txn := .quiet, pass := slot }
            (t.ports.get a.side) [])
      ∧ (∀ f next, p.state = .sending ∨ p.state = .halting → p.inFlight = some f → f.items[f.position]? = some next →
          t.ports.get a.side = { p with
            txn := .item next 1 (natField s.bank.active 8 9), pass := slot
            inFlight := some { f with position := f.position + 1 }, remainder := p.remainder.tail })
      ∧ t.mgmt = { s.mgmt with
          queue := if room = true then s.mgmt.queue ++ [.passResult a.side q.chip (some a.value)] else s.mgmt.queue }
      ∧ t.inReset = false ∧ t.rx = s.rx ∧ t.link = s.link ∧ t.motion = s.motion ∧ t.bend = s.bend
      ∧ t.table = s.table ∧ t.windows = s.windows ∧ t.composer = s.composer ∧ t.segments = s.segments
      ∧ t.sup = s.sup ∧ t.time = s.time ∧ t.bank = s.bank ∧ t.pending = s.pending

/-- A failed attempt, by NAK or by REPLY_TIMEOUT: while another is permitted it begins under the timeout now in force; at
the last, the item's record counts a failed frame up to 4, and at 4 from 3 becomes UNREACHABLE with DRIVER_LOST, or a
pass-through has FAILED and its PASS_RESULT enters a free slot. The port then goes on as after an answer: with the next item,
or by the steps 2 to 4 of R99 (`Port.Proceeds`: a WAITING pass-through, a pending frame, IDLE, HALTED; STOPPED as it was). An
answer to an attempt judged already does nothing, and with nothing on the bus neither does a failure (log entries 3 and
11). -/
def Obligations.FailedAttemptsRetryThenSkip : Prop :=
  (∀ (a : BadAnswer) (s : State), s.inReset = false → s.claimLaw = true → a.late = true → exec (.nak a) s = .next s)
  ∧ ∀ (a : BadAnswer) (c : Instr) (s : State), s.inReset = false → s.claimLaw = true →
    (c = .nak a ∧ a.late = false) ∨ c = .replyTimeout a.side →
    ((s.ports.get a.side).txn = .quiet → exec c s = .next s)
    ∧ (∀ it n timeout, (s.ports.get a.side).txn = .item it n timeout → n < 1 + natField s.bank.active 8 10 →
        exec c s = .next
          { s with
            ports := s.ports.set a.side
              { s.ports.get a.side with txn := .item it (n + 1) (natField s.bank.active 8 9) } })
    ∧ (∀ address n timeout, (s.ports.get a.side).txn = .pass address n timeout → n < 1 + natField s.bank.active 8 10 →
        exec c s = .next
          { s with
            ports := s.ports.set a.side
              { s.ports.get a.side with txn := .pass address (n + 1) (natField s.bank.active 8 8) } })
    ∧ (∀ address n timeout q, (s.ports.get a.side).txn = .pass address n timeout →
        ¬ n < 1 + natField s.bank.active 8 10 → (s.ports.get a.side).pass = .inProgress q →
        let p := s.ports.get a.side
        let room := decide (s.mgmt.queue.length + s.mgmt.reserved < 4)
        let slot : PassSlot := if room = true then .empty else .held q none
        ∃ ended, exec c s = .next
            { s with
              ports := s.ports.set a.side ended
              mgmt := { s.mgmt with
                queue := if room = true then s.mgmt.queue ++ [.passResult a.side q.chip none] else s.mgmt.queue } }
          ∧ (p.state = .halted ∨ p.state = .stopped → ended = { p with txn := .quiet, pass := slot })
          ∧ (p.state = .sending ∨ p.state = .halting → p.inFlight = none →
              Port.Proceeds s.bank.active a.side (decide (s.sup.mode = .test)) room { p with txn := .quiet, pass := slot }
                ended [])
          ∧ (∀ f next, p.state = .sending ∨ p.state = .halting → p.inFlight = some f →
              f.items[f.position]? = some next →
              ended = { p with
                txn := .item next 1 (natField s.bank.active 8 9), pass := slot
                inFlight := some { f with position := f.position + 1 }, remainder := p.remainder.tail }))
    ∧ (∀ it n timeout, (s.ports.get a.side).txn = .item it n timeout → ¬ n < 1 + natField s.bank.active 8 10 →
        let p := s.ports.get a.side
        ∃ t, exec c s = .next t
          ∧ (t.ports.get a.side).chips = p.chips.modify (it.chip - 1) (fun r =>
              if r.address = some it.address then
                { r with
                  failed := min 4 (r.failed + 1)
                  state := if r.failed = 3 then .unreachable else r.state }
              else r)
          ∧ t.flag (.driverLost a.side) = (s.flag (.driverLost a.side)
              || (p.chips[it.chip - 1]?).any (fun r => decide (r.address = some it.address) && r.failed == 3))
          ∧ (∀ f next, it.last = false → p.state ≠ .stopped → p.inFlight = some f →
              f.items[f.position]? = some next →
              t.ports.get a.side = { p with
                chips := (t.ports.get a.side).chips
                txn := .item next 1 (natField s.bank.active 8 9)
                inFlight := some { f with position := f.position + 1 }, remainder := p.remainder.tail })
          ∧ (let test := decide (s.sup.mode = .test)
             let room := decide (s.mgmt.queue.length + s.mgmt.reserved < 4)
             let done : Port := { p with chips := (t.ports.get a.side).chips, txn := .quiet }
             let added := t.mgmt.queue.drop s.mgmt.queue.length
             t.mgmt.queue = s.mgmt.queue ++ added
             ∧ ((∀ r, p.pass ≠ .waiting r) → added = [])
             ∧ (it.last = true →
                 Port.Proceeds s.bank.active a.side test room
                   { done with
                     derate := p.derate && p.warningSeen
                     inFlight := none, remainder := if p.state = .stopped then [] else p.remainder }
                   (t.ports.get a.side) added)
             ∧ (it.last = false → p.state = .stopped →
                 Port.Proceeds s.bank.active a.side test room done (t.ports.get a.side) added))
          ∧ (∀ d, d ≠ a.side → t.ports.get d = s.ports.get d)
          ∧ t.rx = s.rx ∧ t.link = s.link ∧ t.motion = s.motion ∧ t.bend = s.bend ∧ t.table = s.table
          ∧ t.windows = s.windows ∧ t.composer = s.composer ∧ t.segments = s.segments ∧ t.sup = s.sup
          ∧ t.time = s.time ∧ t.bank = s.bank ∧ t.pending = s.pending)

/-! ### Encoding -/

/-- The check of R123 accepts exactly the frames laid out as R125 to R128 say: the receiver reads a frame from data bytes
if and only if the frame can be sent and those are its bytes, CRC included. -/
def Obligations.ReceiverReadsExactlyFrames : Prop :=
  ∀ (data : List Byte) (f : DownFrame), receive data = some f ↔ f.framed = true ∧ f.bytes = data

/-- What the receiver makes of the data bytes between a START and the next END is well formed, and a MANAGE frame's records
come one by one, in order, with the frame's tag and the last one marked (log entry 4). -/
def Obligations.LinkCommandsAreWellFormed : Prop :=
  (∀ data : List Byte, data.length ≤ 1028 → ∀ c ∈ linkCommands data, c.wf = true)
  ∧ ∀ (tag : Byte) (rs : List RawRecord), (DownFrame.manage tag rs).framed = true →
      linkCommands (DownFrame.manage tag rs).bytes
        = rs.mapIdx (fun i r => commandOf r.1 { tag := tag, last := decide (i + 1 = rs.length), params := r.2 })

/-- Upstream frames fit the link: a STATUS payload has 97 bytes, a PASS_RESULT payload 5, and a REPLY to at most eight
commands, none returning more than 48 words, at most 1023. -/
def Obligations.UpstreamPayloadLengths : Prop :=
  (∀ r : StatusReport, r.chips.left.length = 4 → r.chips.right.length = 4 → (statusBytes r).length = 97)
  ∧ (∀ d chip result, (passResultBytes d chip result).length = 5)
  ∧ ∀ (tag : Byte) (rs : List CommandResult), rs.length ≤ 8 → (∀ r ∈ rs, r.data.length ≤ 96) →
      (replyBytes tag rs).length ≤ 1023

/-! ### Laws that every step keeps -/

/-- The queue never holds more than four frames, the reserved slot included, and a free slot and a waiting claim never stand
together. -/
def Obligations.StepKeepsQueueLaws : Prop :=
  ∀ s t : State, s.mgmt.queueLaw = true → s.claimLaw = true → step s = .next t →
    t.mgmt.queueLaw = true ∧ t.claimLaw = true

/-- The beam mode always agrees with the link state, the test state and the LOWREQ level. -/
def Obligations.StepKeepsModeLaw : Prop :=
  ∀ s t : State, s.modeLaw = true → step s = .next t → t.modeLaw = true

/-- The bend angles stay within θmax and the shifts within a lamp width of ACTIVE, and both are 0 in FALLBACK, DARK and
TEST. -/
def Obligations.StepKeepsBendLaw : Prop :=
  ∀ s t : State, s.bendLaw = true → step s = .next t → t.bendLaw = true

/-- The Track Table keeps its 24 slots and never holds two tracks of one object id. -/
def Obligations.StepKeepsTrackLaw : Prop :=
  ∀ s t : State, s.table.law = true → step s = .next t → t.table.law = true

/-- Each side's window list keeps its order and its gaps, inside the lamp, and never holds more than 24 windows. -/
def Obligations.StepKeepsWindowLaw : Prop :=
  ∀ s t : State, s.windowsLaw = true → step s = .next t → t.windowsLaw = true

/-- Both copies of the bank keep their canonical form, and ACTIVE has always passed validation. -/
def Obligations.StepKeepsBankLaws : Prop :=
  ∀ s t : State, s.bank.canonical = true → s.bank.activeValid = true → step s = .next t →
    t.bank.canonical = true ∧ t.bank.activeValid = true

/-- Every level and every target stays within 0..1023. -/
def Obligations.StepKeepsLevelLaw : Prop :=
  ∀ s t : State, s.levelLaw = true → step s = .next t → t.levelLaw = true

/-- The record of each port stays consistent: one transaction, at most one frame in flight with its list, a remainder that
belongs to it, and nothing in flight or pending on an IDLE or HALTED port. With it, an UNREACHABLE chip is sent no SEGMENT
WRITE in the delivery of a frame whose number is no multiple of 16. -/
def Obligations.StepKeepsPortsLaw : Prop :=
  ∀ s t : State, s.portsLaw = true → step s = .next t →
    t.portsLaw = true ∧ (s.probesLaw = true → t.probesLaw = true)

/-- Saturating counts, clamped values and fixed lengths stay in their ranges. -/
def Obligations.StepKeepsRangeLaw : Prop :=
  ∀ s t : State, s.rangeLaw = true → step s = .next t → t.rangeLaw = true

/-- Every law holds at the reset state. -/
def Obligations.LawsHoldAtReset : Prop :=
  State.reset.mgmt.queueLaw = true ∧ State.reset.claimLaw = true ∧ State.reset.modeLaw = true
    ∧ State.reset.bendLaw = true ∧ State.reset.table.law = true ∧ State.reset.windowsLaw = true
    ∧ State.reset.bank.canonical = true ∧ State.reset.bank.activeValid = true ∧ State.reset.levelLaw = true
    ∧ State.reset.portsLaw = true ∧ State.reset.probesLaw = true ∧ State.reset.rangeLaw = true

/-- Two output frame events are at least 2000 ticks apart: a step outside reset changes the frame counter only at an event,
by one, with at least 2000 ticks since the last event (the step's own ticks, by which it moves the ms prescaler, counted,
log entry 2), or to 0 by a reset: COLD_RESET at the front of the command queue, or a warm reset with its REPLY at the head of
the upstream queue (log entry 8). -/
def Obligations.OutputFramesKeepGuard : Prop :=
  ∀ s t : State, step s = .next t → t.time.frameCounter ≠ s.time.frameCounter →
    ((∃ c, s.pending.head? = some c
        ∧ (c = .coldReset
          ∨ ((c = .upstreamFrameSent ∨ c = .warmResetTakesEffect)
              ∧ ∃ f, s.mgmt.queue.head? = some f ∧ f.warmReply = true)))
      ∧ t.time.frameCounter = 0#16 ∧ t.time.msClock = 0#32 ∧ t.time.sinceEvent = 0 ∧ t.link.state = .down
      ∧ t.segments = .both (List.replicate 128 SegmentRecord.dark) ∧ t.mgmt.queue = [] ∧ t.mgmt.manage = none)
    ∨ (t.time.frameCounter = s.time.frameCounter + 1#16 ∧ t.time.sinceEvent = 0
        ∧ 2000 ≤ s.time.sinceEvent + (t.time.msTicks - s.time.msTicks))

/-- The ACTIVE copy changes only by a cold reset, to the defaults, or at an output frame event by a pending commit whose
STAGED passed validation, to STAGED. -/
def Obligations.ActiveChangesByCommitAlone : Prop :=
  ∀ s t : State, step s = .next t → t.bank.active ≠ s.bank.active →
    (t.inReset = true ∧ t.bank.active = [])
    ∨ (s.bank.commitPending = true ∧ bankFault s.bank.staged = none ∧ t.bank.active = s.bank.staged
        ∧ t.bank.commitPending = false ∧ t.time.frameCounter = s.time.frameCounter + 1#16)

/-- Who may change what: the held motion record changes only by a MOTION frame or a reset, the segment records only when a
composition completes or by a reset, and the ms clock only by its own tick or a reset. The resets are COLD_RESET,
WARM_RESET_TAKES_EFFECT and the END of the WARM RESET REPLY (log entry 8). That an output frame event may complete a
composition, and so step the segment records, is log entry 9. -/
def Obligations.OwnersAloneChangeTheirState : Prop :=
  ∀ (c : Instr) (s t : State), exec c s = .next t → c ≠ .coldReset → c ≠ .warmResetTakesEffect →
    (c = .upstreamFrameSent → ∀ f, s.mgmt.queue.head? = some f → f.warmReply = false) →
    (t.motion ≠ s.motion → ∃ m, c = .motionFrame m)
    ∧ (t.segments ≠ s.segments → c = .compositionComplete ∨ c = .frameTimerExpiry ∨ ∃ e, c = .fsyncEdge e)
    ∧ (t.segments ≠ s.segments → s.composer.inFlight.isSome = true)
    ∧ (t.time.msClock ≠ s.time.msClock → c = .msClockTick ∧ t.time.msClock = s.time.msClock + 1#32)
    ∧ (t.inReset ≠ s.inReset → c = .resetEnds)
end

