-- ==== Sys2Proof/Laws/Bank.lean ====
section
/-! SUPPORT. The Table Bank as data: a read after a write, the canonical form, and the validation of a commit. -/

namespace Sys2Proof.Machine

open Sys2Proof

/-! ### The canonical form and reading -/

/-- Every listed cell lies above a bound. -/
theorem cellFind_lt {b : BankCopy} {a : Nat} (h : b.all (fun c => decide (a < c.1)) = true) : cellFind b a = none := by
  induction b with
  | nil => rfl
  | cons c rest ih =>
    obtain ⟨k, v⟩ := c
    simp only [List.all_cons, Bool.and_eq_true, decide_eq_true_eq] at h
    rw [cellFind, if_neg (by omega)]
    exact ih h.2

theorem cellErase_all {p : Nat × Word → Bool} {b : BankCopy} (h : b.all p = true) (a : Nat) :
    (cellErase b a).all p = true := by
  induction b with
  | nil => rfl
  | cons c rest ih =>
    obtain ⟨k, v⟩ := c
    simp only [List.all_cons, Bool.and_eq_true] at h
    simp only [cellErase]
    split
    · exact h.2
    · simp [h.1, ih h.2]

theorem cellInsert_all {p : Nat × Word → Bool} {b : BankCopy} {a : Nat} {w : Word} (h : b.all p = true)
    (ha : p (a, w) = true) : (cellInsert b a w).all p = true := by
  induction b with
  | nil => simp [cellInsert, ha]
  | cons c rest ih =>
    obtain ⟨k, v⟩ := c
    simp only [List.all_cons, Bool.and_eq_true] at h
    simp only [cellInsert]
    split
    · simp [ha, h.1, h.2]
    · split
      · simp [ha, h.2]
      · simp [h.1, ih h.2]

/-- Erasing a cell keeps the canonical form. -/
theorem cellErase_wf {b : BankCopy} (h : bankWf b = true) (a : Nat) : bankWf (cellErase b a) = true := by
  induction b with
  | nil => rfl
  | cons c rest ih =>
    obtain ⟨k, v⟩ := c
    simp only [bankWf, Bool.and_eq_true, decide_eq_true_eq] at h
    simp only [cellErase]
    split
    · exact h.2
    · simp only [bankWf, Bool.and_eq_true, decide_eq_true_eq]
      exact ⟨⟨h.1.1, cellErase_all h.1.2 a⟩, ih h.2⟩

/-- Listing a cell at a word other than its default keeps the canonical form. -/
theorem cellInsert_wf {b : BankCopy} (h : bankWf b = true) {a : Nat} {w : Word} (hw : w ≠ cellDefault a) :
    bankWf (cellInsert b a w) = true := by
  induction b with
  | nil => simp [cellInsert, bankWf, hw]
  | cons c rest ih =>
    obtain ⟨k, v⟩ := c
    have h' := h
    simp only [bankWf, Bool.and_eq_true, decide_eq_true_eq] at h'
    simp only [cellInsert]
    split
    · rename_i hk
      simp only [bankWf, List.all_cons, Bool.and_eq_true, decide_eq_true_eq]
      refine ⟨⟨hw, hk, ?_⟩, h'⟩
      rw [List.all_eq_true] at h' ⊢
      intro x hx
      have := h'.1.2 x hx
      simp only [decide_eq_true_eq] at this ⊢
      omega
    · split
      · rename_i hk
        subst hk
        simp only [bankWf, Bool.and_eq_true, decide_eq_true_eq]
        exact ⟨⟨hw, h'.1.2⟩, h'.2⟩
      · simp only [bankWf, Bool.and_eq_true, decide_eq_true_eq]
        exact ⟨⟨h'.1.1, cellInsert_all h'.1.2 (by simp; omega)⟩, ih h'.2⟩

/-- A store keeps the canonical form. -/
theorem cellWrite_wf {b : BankCopy} (h : bankWf b = true) (a : Nat) (w : Word) : bankWf (cellWrite b a w) = true := by
  simp only [cellWrite]
  split
  · exact cellErase_wf h a
  · exact cellInsert_wf h ‹_›

/-- Stores of a run of words keep the canonical form. -/
theorem bankWriteAll_wf {b : BankCopy} (h : bankWf b = true) (id off : Nat) (ws : List Word) :
    bankWf (bankWriteAll b id off ws) = true := by
  induction ws generalizing b off with
  | nil => exact h
  | cons w ws ih => exact ih (cellWrite_wf h _ _) _

theorem cellFind_erase_ne (b : BankCopy) {a c : Nat} (h : c ≠ a) : cellFind (cellErase b a) c = cellFind b c := by
  induction b with
  | nil => rfl
  | cons x rest ih =>
    obtain ⟨k, v⟩ := x
    simp only [cellErase, cellFind]
    split
    · rename_i hk; rw [if_neg (by omega)]
    · simp only [cellFind, ih]

theorem cellFind_insert (b : BankCopy) (a : Nat) (w : Word) (c : Nat) :
    cellFind (cellInsert b a w) c = if c = a then some w else cellFind b c := by
  induction b with
  | nil => simp [cellInsert, cellFind, eq_comm]
  | cons x rest ih =>
    obtain ⟨k, v⟩ := x
    simp only [cellInsert]
    split
    · simp [cellFind, eq_comm]
    · split
      · rename_i hk; subst hk
        simp only [cellFind, eq_comm]
        split <;> rfl
      · simp only [cellFind, ih]
        split
        · rename_i hk
          rw [if_neg (by omega)]
        · rfl

/-- A word read after a store to its own cell is the word stored. In canonical form a cell is listed once. -/
theorem cellRead_write_same {b : BankCopy} (h : bankWf b = true) (a : Nat) (w : Word) : cellRead (cellWrite b a w) a = w := by
  simp only [cellWrite]
  split
  · rename_i hw
    have : cellFind (cellErase b a) a = none := by
      induction b with
      | nil => rfl
      | cons x rest ih =>
        obtain ⟨k, v⟩ := x
        simp only [bankWf, Bool.and_eq_true] at h
        simp only [cellErase]
        split
        · rename_i hk; subst hk; exact cellFind_lt h.1.2
        · rename_i hk; rw [cellFind, if_neg hk]; exact ih h.2
    simp [cellRead, this, hw]
  · simp [cellRead, cellFind_insert]

/-- A store leaves every other cell. -/
theorem cellRead_write_ne (b : BankCopy) {a c : Nat} (h : c ≠ a) (w : Word) : cellRead (cellWrite b a w) c = cellRead b c := by
  simp only [cellWrite]
  split
  · simp [cellRead, cellFind_erase_ne b h]
  · simp [cellRead, cellFind_insert, h]

/-! ### Tables and words -/

/-- Words of one table lie in cells of their own. -/
theorem cellOf_inj {i j o p : Nat} (ho : o < 256) (hp : p < 256) : cellOf i o = cellOf j p ↔ i = j ∧ o = p := by
  simp only [cellOf]; omega

/-- A run of stores: each word of the run holds the word stored there, and every other word is as before. -/
theorem bankRead_writeAll {b : BankCopy} (h : bankWf b = true) (id off : Nat) (ws : List Word)
    (hlen : off + ws.length ≤ 256) (table o : Nat) (ho : o < 256) :
    bankRead (bankWriteAll b id off ws) table o
      = if table = id ∧ off ≤ o ∧ o < off + ws.length then ws.getD (o - off) 0#16 else bankRead b table o := by
  induction ws generalizing b off with
  | nil => simp only [bankWriteAll, List.length_nil]; rw [if_neg (by omega)]
  | cons w ws ih =>
    simp only [List.length_cons] at hlen ⊢
    rw [bankWriteAll, ih (b := bankWrite b id off w) (cellWrite_wf h _ _) (off + 1) (by omega)]
    by_cases hin : table = id ∧ off + 1 ≤ o ∧ o < off + 1 + ws.length
    · rw [if_pos hin, if_pos (by omega)]
      have e : o - off = (o - (off + 1)) + 1 := by omega
      rw [e]
      rfl
    · rw [if_neg hin]
      by_cases heq : table = id ∧ o = off
      · obtain ⟨rfl, rfl⟩ := heq
        rw [if_pos (by omega)]
        simp only [Nat.sub_self, List.getD_cons_zero]
        exact cellRead_write_same h _ _
      · rw [if_neg (by omega)]
        exact cellRead_write_ne b (by rw [Ne, cellOf_inj ho (by omega)]; exact heq) w

/-! ### Validation (R154) -/

theorem tableFault_none {b : BankCopy} {id : Nat} :
    tableFault b id = none ↔ ∀ off, off < tableSize id → wordOk b id off = true := by
  simp [tableFault]

/-- Validation passes exactly when every word of every table passes its checks (R154). -/
theorem bankFault_none {b : BankCopy} :
    bankFault b = none ↔ ∀ id ∈ tableIds, ∀ off, off < tableSize id → wordOk b id off = true := by
  simp only [bankFault, List.findSome?_eq_none_iff, Option.map_eq_none_iff, tableFault_none]

/-- A cell beyond every listed one is unlisted. -/
theorem cellFind_above {b : BankCopy} {n a : Nat} (hb : ∀ c ∈ b, c.1 < n) (ha : n ≤ a) : cellFind b a = none := by
  induction b with
  | nil => rfl
  | cons c rest ih =>
    obtain ⟨k, v⟩ := c
    have hk : k < n := hb (k, v) List.mem_cons_self
    rw [cellFind, if_neg (by omega)]
    exact ih fun c hc => hb c (List.mem_cons_of_mem _ hc)

/-- A copy whose PATTERN tables stand at their defaults, all 0, passes validation if the words of the tables 0 to 8 and of
FALLBACK do (R152, R154). -/
theorem bankFault_small {b : BankCopy} (hb : ∀ c ∈ b, c.1 < cellOf 16 0)
    (small : ∀ id ∈ [0, 1, 2, 3, 4, 5, 6, 7, 8], ∀ off ∈ List.range (tableSize id), wordOk b id off = true)
    (fallback : ∀ off ∈ List.range (tableSize 32), wordOk b 32 off = true) :
    bankFault b = none := by
  rw [bankFault_none]
  have zero : ∀ id ∈ List.range' 16 16, ∀ off, off < 256 → wordOk b id off = true := by
    intro id hid off ho
    have hid' : 16 ≤ id ∧ id < 32 := by rw [List.mem_range'] at hid; omega
    have e : cellOf id off / 256 = id := by simp only [cellOf]; omega
    have hd : defaultWord id (cellOf id off % 256) = 0#16 := by
      fin_cases hid <;> rfl
    have hn : cellFind b (cellOf id off) = none := cellFind_above hb (by simp only [cellOf]; omega)
    have h0 : natField b id off = 0 := by
      simp only [natField, bankRead, cellRead, hn, cellDefault, Option.getD_none, e, hd, BitVec.toNat_zero]
    have hp : wordOk b id off = patternWordOk b id off := by
      fin_cases hid <;> rfl
    simp [hp, patternWordOk, h0, within]
  intro id hid off ho
  simp only [tableIds, List.mem_cons, List.not_mem_nil, or_false] at hid
  have h256 : tableSize id ≤ 256 := by
    rcases hid with rfl | rfl | rfl | rfl | rfl | rfl | rfl | rfl | rfl | rfl | rfl | rfl | rfl | rfl | rfl | rfl | rfl
      | rfl | rfl | rfl | rfl | rfl | rfl | rfl | rfl | rfl <;> decide
  by_cases h9 : id < 9
  · exact small id (by simp; omega) off (List.mem_range.2 ho)
  · by_cases h32 : id = 32
    · subst h32; exact fallback off (List.mem_range.2 ho)
    · exact zero id (by rw [List.mem_range']; exact ⟨id - 16, by omega, by omega⟩) off (by omega)

/-- The defaults pass validation: a cold reset leaves a bank that a commit would apply (R149 to R152, R154). -/
theorem bankFault_defaults : bankFault [] = none :=
  bankFault_small (by simp) (by decide +kernel) (by decide +kernel)

/-- The first word that fails is reported, by table id and then by offset (R154). -/
theorem bankFault_some {b : BankCopy} {id off : Nat} (hid : id ∈ tableIds) (ho : off < tableSize id)
    (hbad : wordOk b id off = false)
    (hfirst : ∀ j ∈ tableIds, ∀ k, k < tableSize j → (j < id ∨ (j = id ∧ k < off)) → wordOk b j k = true) :
    bankFault b = some (id, off) := by
  have hsorted : tableIds.Pairwise (· < ·) := by decide
  have key : ∀ l : List Nat, l.Pairwise (· < ·) → id ∈ l →
      (∀ j ∈ l, ∀ k, k < tableSize j → (j < id ∨ (j = id ∧ k < off)) → wordOk b j k = true) →
      l.findSome? (fun id => (tableFault b id).map (fun off => (id, off))) = some (id, off) := by
    intro l
    induction l with
    | nil => intro _ h; cases h
    | cons j js ih =>
      intro hp hm hf
      rw [List.pairwise_cons] at hp
      by_cases hj : j = id
      · subst hj
        have : tableFault b j = some off := by
          simp only [tableFault, List.find?_range_eq_some, Bool.not_eq_true', Bool.not_not]
          refine ⟨hbad, by simpa using ho, fun k hk => ?_⟩
          exact hf j (List.mem_cons_self) k (by omega) (.inr ⟨rfl, hk⟩)
        simp [this]
      · have hlt : j < id := hp.1 id (by simpa [Ne.symm hj] using hm)
        have : tableFault b j = none :=
          tableFault_none.2 fun k hk => hf j (List.mem_cons_self) k hk (.inl hlt)
        rw [List.findSome?_cons, this]
        exact ih hp.2 (by simpa [Ne.symm hj] using hm) fun i hi => hf i (List.mem_cons_of_mem _ hi)
  exact key tableIds hsorted hid hfirst

end Sys2Proof.Machine
end

