-- ==== Sys2Proof/Laws/State.lean ====
section
/-! SUPPORT. The small lemmas of the state's named updates: one for each field an update leaves or sets, by `rfl`. -/

namespace Sys2Proof.Machine

open Sys2Proof

/-! ### Sides -/

@[simp] theorem Sided.get_set_same {α : Type} (x : Sided α) (d : Side) (v : α) : (x.set d v).get d = v := by
  cases d <;> rfl

theorem Sided.get_set_of_ne {α : Type} (x : Sided α) {d e : Side} (h : e ≠ d) (v : α) : (x.set d v).get e = x.get e := by
  cases d <;> cases e <;> first | rfl | exact absurd rfl h

@[simp] theorem Sided.get_of {α : Type} (f : Side → α) (d : Side) : (Sided.of f).get d = f d := by cases d <;> rfl

@[simp] theorem Sided.get_both {α : Type} (v : α) (d : Side) : (Sided.both v).get d = v := by cases d <;> rfl

@[simp] theorem Sided.set_get {α : Type} (x : Sided α) (d : Side) : x.set d (x.get d) = x := by cases d <;> rfl

@[simp] theorem Sided.of_get {α : Type} (x : Sided α) : Sided.of (fun d => x.get d) = x := rfl

/-- Two pairs agree when they agree on each side. -/
theorem Sided.ext_get {α : Type} {x y : Sided α} (h : ∀ d, x.get d = y.get d) : x = y := by
  have hl := h .left
  have hr := h .right
  cases x; cases y
  simp only [Sided.get] at hl hr
  rw [hl, hr]

/-! ### Raising flags -/

@[simp] theorem State.raise_inReset (s : State) (m : Word) : (s.raise m).inReset = s.inReset := rfl
@[simp] theorem State.raise_rx (s : State) (m : Word) : (s.raise m).rx = s.rx := rfl
@[simp] theorem State.raise_link (s : State) (m : Word) : (s.raise m).link = s.link := rfl
@[simp] theorem State.raise_motion (s : State) (m : Word) : (s.raise m).motion = s.motion := rfl
@[simp] theorem State.raise_bend (s : State) (m : Word) : (s.raise m).bend = s.bend := rfl
@[simp] theorem State.raise_table (s : State) (m : Word) : (s.raise m).table = s.table := rfl
@[simp] theorem State.raise_windows (s : State) (m : Word) : (s.raise m).windows = s.windows := rfl
@[simp] theorem State.raise_composer (s : State) (m : Word) : (s.raise m).composer = s.composer := rfl
@[simp] theorem State.raise_segments (s : State) (m : Word) : (s.raise m).segments = s.segments := rfl
@[simp] theorem State.raise_ports (s : State) (m : Word) : (s.raise m).ports = s.ports := rfl
@[simp] theorem State.raise_sup (s : State) (m : Word) : (s.raise m).sup = s.sup := rfl
@[simp] theorem State.raise_time (s : State) (m : Word) : (s.raise m).time = s.time := rfl
@[simp] theorem State.raise_bank (s : State) (m : Word) : (s.raise m).bank = s.bank := rfl
@[simp] theorem State.raise_pending (s : State) (m : Word) : (s.raise m).pending = s.pending := rfl
@[simp] theorem State.raise_queue (s : State) (m : Word) : (s.raise m).mgmt.queue = s.mgmt.queue := rfl
@[simp] theorem State.raise_reportClaim (s : State) (m : Word) : (s.raise m).mgmt.reportClaim = s.mgmt.reportClaim := rfl
@[simp] theorem State.raise_statusClaim (s : State) (m : Word) : (s.raise m).mgmt.statusClaim = s.mgmt.statusClaim := rfl
@[simp] theorem State.raise_warmPending (s : State) (m : Word) : (s.raise m).mgmt.warmPending = s.mgmt.warmPending := rfl
@[simp] theorem State.raise_manage (s : State) (m : Word) : (s.raise m).mgmt.manage = s.mgmt.manage := rfl
@[simp] theorem State.raise_sticky (s : State) (m : Word) : (s.raise m).mgmt.sticky = s.mgmt.sticky ||| m := rfl
@[simp] theorem State.raise_reportRequest (s : State) (m : Word) :
    (s.raise m).mgmt.reportRequest = (s.mgmt.reportRequest || (m &&& reportEnable s.bank.active) != 0#16) := rfl
@[simp] theorem Management.raise_reserved (m : Management) (e k : Word) : (m.raise e k).reserved = m.reserved := rfl
@[simp] theorem Management.raise_hasRoom (m : Management) (e k : Word) : (m.raise e k).hasRoom = m.hasRoom := rfl

/-- An empty mask raises nothing. -/
@[simp] theorem State.raise_zero (s : State) : s.raise 0#16 = s := by
  simp [State.raise, Management.raise]

@[simp] theorem Flag.maskIf_true (f : Flag) : f.maskIf true = f.mask := rfl
@[simp] theorem Flag.maskIf_false (f : Flag) : f.maskIf false = 0#16 := rfl

/-! ### Ticks -/

@[simp] theorem State.elapse_inReset (s : State) (n : Nat) : (s.elapse n).inReset = s.inReset := rfl
@[simp] theorem State.elapse_rx (s : State) (n : Nat) : (s.elapse n).rx = s.rx := rfl
@[simp] theorem State.elapse_link (s : State) (n : Nat) : (s.elapse n).link = s.link := rfl
@[simp] theorem State.elapse_motion (s : State) (n : Nat) : (s.elapse n).motion = s.motion := rfl
@[simp] theorem State.elapse_bend (s : State) (n : Nat) : (s.elapse n).bend = s.bend := rfl
@[simp] theorem State.elapse_table (s : State) (n : Nat) : (s.elapse n).table = s.table := rfl
@[simp] theorem State.elapse_windows (s : State) (n : Nat) : (s.elapse n).windows = s.windows := rfl
@[simp] theorem State.elapse_composer (s : State) (n : Nat) : (s.elapse n).composer = s.composer := rfl
@[simp] theorem State.elapse_segments (s : State) (n : Nat) : (s.elapse n).segments = s.segments := rfl
@[simp] theorem State.elapse_ports (s : State) (n : Nat) : (s.elapse n).ports = s.ports := rfl
@[simp] theorem State.elapse_bank (s : State) (n : Nat) : (s.elapse n).bank = s.bank := rfl
@[simp] theorem State.elapse_mgmt (s : State) (n : Nat) : (s.elapse n).mgmt = s.mgmt := rfl
@[simp] theorem State.elapse_pending (s : State) (n : Nat) : (s.elapse n).pending = s.pending := rfl
@[simp] theorem State.elapse_count (s : State) (n : Nat) : (s.elapse n).time.count = s.time.count - n := rfl
@[simp] theorem State.elapse_expiryDue (s : State) (n : Nat) : (s.elapse n).time.expiryDue = (s.time.expiryDue || decide (s.time.count < n)) := rfl
@[simp] theorem State.elapse_sinceEvent (s : State) (n : Nat) : (s.elapse n).time.sinceEvent = s.time.sinceEvent + n := rfl
@[simp] theorem State.elapse_flywheel (s : State) (n : Nat) : (s.elapse n).time.flywheel = s.time.flywheel := rfl
@[simp] theorem State.elapse_syncLost (s : State) (n : Nat) : (s.elapse n).time.syncLost = s.time.syncLost := rfl
@[simp] theorem State.elapse_strobeActive (s : State) (n : Nat) : (s.elapse n).time.strobeActive = s.time.strobeActive := rfl
@[simp] theorem State.elapse_strobeLeft (s : State) (n : Nat) : (s.elapse n).time.strobeLeft = s.time.strobeLeft - n := rfl
@[simp] theorem State.elapse_strobeIdle (s : State) (n : Nat) : (s.elapse n).time.strobeIdle = s.time.strobeIdle := rfl
@[simp] theorem State.elapse_fsyncDriven (s : State) (n : Nat) : (s.elapse n).time.fsyncDriven = s.time.fsyncDriven := rfl
@[simp] theorem State.elapse_msClock (s : State) (n : Nat) : (s.elapse n).time.msClock = s.time.msClock := rfl
@[simp] theorem State.elapse_msTicks (s : State) (n : Nat) : (s.elapse n).time.msTicks = s.time.msTicks + n := rfl
@[simp] theorem State.elapse_frameCounter (s : State) (n : Nat) : (s.elapse n).time.frameCounter = s.time.frameCounter := rfl
@[simp] theorem State.elapse_mode (s : State) (n : Nat) : (s.elapse n).sup.mode = s.sup.mode := rfl
@[simp] theorem State.elapse_testActive (s : State) (n : Nat) : (s.elapse n).sup.testActive = s.sup.testActive := rfl
@[simp] theorem State.elapse_lowreqLevel (s : State) (n : Nat) : (s.elapse n).sup.lowreqLevel = s.sup.lowreqLevel := rfl
@[simp] theorem State.elapse_lowreqLine (s : State) (n : Nat) : (s.elapse n).sup.lowreqLine = s.sup.lowreqLine := rfl
@[simp] theorem State.elapse_lowreqHeld (s : State) (n : Nat) : (s.elapse n).sup.lowreqHeld = s.sup.lowreqHeld.map (· + n) := rfl
@[simp] theorem State.elapse_sceneStale (s : State) (n : Nat) : (s.elapse n).sup.sceneStale = s.sup.sceneStale := rfl
@[simp] theorem State.elapse_program (s : State) (n : Nat) : (s.elapse n).sup.program = s.sup.program := rfl
@[simp] theorem State.elapse_current (s : State) (n : Nat) : (s.elapse n).sup.current = s.sup.current := rfl
@[simp] theorem State.elapse_walk (s : State) (n : Nat) : (s.elapse n).sup.walk = s.sup.walk := rfl
@[simp] theorem State.elapse_dwell (s : State) (n : Nat) : (s.elapse n).sup.dwell = s.sup.dwell := rfl

/-! ### The queue of commands -/

@[simp] theorem State.withQueue_inReset (s : State) (q : List Instr) : (s.withQueue q).inReset = s.inReset := rfl
@[simp] theorem State.withQueue_rx (s : State) (q : List Instr) : (s.withQueue q).rx = s.rx := rfl
@[simp] theorem State.withQueue_link (s : State) (q : List Instr) : (s.withQueue q).link = s.link := rfl
@[simp] theorem State.withQueue_motion (s : State) (q : List Instr) : (s.withQueue q).motion = s.motion := rfl
@[simp] theorem State.withQueue_bend (s : State) (q : List Instr) : (s.withQueue q).bend = s.bend := rfl
@[simp] theorem State.withQueue_table (s : State) (q : List Instr) : (s.withQueue q).table = s.table := rfl
@[simp] theorem State.withQueue_windows (s : State) (q : List Instr) : (s.withQueue q).windows = s.windows := rfl
@[simp] theorem State.withQueue_composer (s : State) (q : List Instr) : (s.withQueue q).composer = s.composer := rfl
@[simp] theorem State.withQueue_segments (s : State) (q : List Instr) : (s.withQueue q).segments = s.segments := rfl
@[simp] theorem State.withQueue_ports (s : State) (q : List Instr) : (s.withQueue q).ports = s.ports := rfl
@[simp] theorem State.withQueue_sup (s : State) (q : List Instr) : (s.withQueue q).sup = s.sup := rfl
@[simp] theorem State.withQueue_time (s : State) (q : List Instr) : (s.withQueue q).time = s.time := rfl
@[simp] theorem State.withQueue_bank (s : State) (q : List Instr) : (s.withQueue q).bank = s.bank := rfl
@[simp] theorem State.withQueue_mgmt (s : State) (q : List Instr) : (s.withQueue q).mgmt = s.mgmt := rfl
@[simp] theorem State.withQueue_pending (s : State) (q : List Instr) : (s.withQueue q).pending = q := rfl

/-! ### Reset asserted -/

theorem State.running_inReset {s : State} (h : s.inReset = true) (f : State → State) : s.running f = s := by
  simp [State.running, h]

theorem State.running_normal {s : State} (h : s.inReset = false) (f : State → State) : s.running f = f s := by
  simp [State.running, h]

end Sys2Proof.Machine
end

