-- ==== Sys2Proof/Laws/Port.lean ====
section
/-! SUPPORT. Transfer lists and the operations of a lamp bus port (R97 to R107): what each can do, said once. -/

namespace Sys2Proof.Machine

open Sys2Proof

/-! ### Transfer lists (R97) -/

/-- Marking the last item changes nothing else. -/
theorem markLast_map {α : Type} (f : TransferItem → α) (hf : ∀ it last, f { it with last := last } = f it)
    (l : List TransferItem) : (markLast l).map f = l.map f := by
  induction l using markLast.induct with
  | case1 => rfl
  | case2 it => simp [markLast, hf]
  | case3 it rest h ih => simp [markLast, ih]

theorem markLast_length (l : List TransferItem) : (markLast l).length = l.length := by
  simpa using congrArg List.length (markLast_map (fun it => it.chip) (fun _ _ => rfl) l)

/-- Of items none of which is marked, the last alone is marked. -/
theorem markLast_last (l : List TransferItem) (h : ∀ it ∈ l, it.last = false) :
    (markLast l).map TransferItem.last = (List.range l.length).map (fun i => decide (i + 1 = l.length)) := by
  induction l using markLast.induct with
  | case1 => rfl
  | case2 it => simp [markLast]
  | case3 it rest hne ih =>
    have hr := ih (fun it hit => h it (List.mem_cons_of_mem _ hit))
    simp only [markLast, List.map_cons, hr, List.length_cons, List.range_succ_eq_map (n := rest.length), List.map_map]
    congr 1
    · rw [h it List.mem_cons_self]
      have h0 : rest ≠ [] := hne
      have h1 : rest.length ≠ 0 := by simpa using h0
      symm
      simp
      omega
    · apply List.map_congr_left
      intro a _
      simp

theorem markLast_eq_nil (l : List TransferItem) : markLast l = [] ↔ l = [] := by
  rw [← List.length_eq_zero_iff, markLast_length, List.length_eq_zero_iff]

/-- The item of an alias: the driver map's entry, unmarked, of an alias that is not left out (R97). -/
theorem itemFor_some {b : BankCopy} {d : Side} {chips : List ChipRecord} {number : Word} {chip : Nat} {it : TransferItem}
    (h : itemFor b d chips number chip = some it) :
    ∃ e, chipEntry b d chip = some e ∧ skipsChip chips number chip = false
      ∧ it = { chip := chip, address := e.address, first := e.first, count := e.count, last := false } := by
  simp only [itemFor] at h
  split at h
  · rename_i e he
    split at h
    · cases h
    · rename_i hs
      cases h
      exact ⟨e, he, by simpa using hs, rfl⟩
  · cases h

/-- Every item of a transfer list is an alias of 1..4 that the frame does not leave out (R97). -/
theorem mem_transferList {b : BankCopy} {d : Side} {chips : List ChipRecord} {number : Word} {it : TransferItem}
    (h : it ∈ transferList b d chips number) : it.chip ∈ [1, 2, 3, 4] ∧ skipsChip chips number it.chip = false := by
  have hm : it.chip ∈ (transferList b d chips number).map TransferItem.chip := List.mem_map_of_mem h
  rw [transferList, markLast_map _ (fun _ _ => rfl)] at hm
  obtain ⟨it', h', e⟩ := List.mem_map.1 hm
  obtain ⟨chip, hc, hi⟩ := List.mem_filterMap.1 h'
  obtain ⟨x, -, hs, rfl⟩ := itemFor_some hi
  rw [← e]
  exact ⟨hc, hs⟩

/-- No alias stands twice in a transfer list (R97). -/
theorem transferList_nodup (b : BankCopy) (d : Side) (chips : List ChipRecord) (number : Word) :
    ((transferList b d chips number).map TransferItem.chip).Nodup := by
  rw [transferList, markLast_map _ (fun _ _ => rfl), List.map_filterMap]
  have key : ∀ k : List Nat,
      (k.filterMap (fun c => (itemFor b d chips number c).map TransferItem.chip)).Sublist k := by
    intro k
    induction k with
    | nil => simp
    | cons c k ih =>
      cases hc : itemFor b d chips number c with
      | none => simp only [List.filterMap_cons, hc, Option.map_none]; exact ih.cons _
      | some it =>
        obtain ⟨e, -, -, rfl⟩ := itemFor_some hc
        simp only [List.filterMap_cons, hc, Option.map_some]
        exact ih.cons_cons _
  exact (key _).nodup (by decide)

/-- The last item of a transfer list alone is marked LAST (R97). -/
theorem transferList_last (b : BankCopy) (d : Side) (chips : List ChipRecord) (number : Word) :
    (transferList b d chips number).map TransferItem.last
      = (List.range (transferList b d chips number).length).map
          (fun i => decide (i + 1 = (transferList b d chips number).length)) := by
  have h : (transferList b d chips number).length = ([1, 2, 3, 4].filterMap (itemFor b d chips number)).length := by
    rw [transferList, markLast_length]
  rw [h, transferList]
  apply markLast_last
  intro it hit
  obtain ⟨chip, -, hi⟩ := List.mem_filterMap.1 hit
  obtain ⟨e, -, -, rfl⟩ := itemFor_some hi
  rfl

/-! ### Beginning items and frames -/

/-- The next item, where one is left: it begins with its first attempt, and leaves the remainder (R99, R106). -/
theorem Port.nextItem_some {b : BankCopy} {p q : Port} (h : p.nextItem b = some q) :
    ∃ f it, p.inFlight = some f ∧ f.items[f.position]? = some it
      ∧ q = { p with
              txn := .item it 1 (lampTimeout b)
              inFlight := some { f with position := f.position + 1 }, remainder := p.remainder.tail } := by
  simp only [Port.nextItem] at h
  split at h
  · cases h
  · rename_i f hf
    split at h
    · cases h
    · rename_i it hit
      cases h
      exact ⟨f, it, hf, hit, rfl⟩

/-- No next item: nothing is in flight, or every item of the list has begun. -/
theorem Port.nextItem_none {b : BankCopy} {p : Port} (h : p.nextItem b = none) :
    p.inFlight = none ∨ ∃ f, p.inFlight = some f ∧ f.items.length ≤ f.position := by
  simp only [Port.nextItem] at h
  split at h
  · exact .inl ‹_›
  · rename_i f hf
    split at h
    · rename_i hn
      exact .inr ⟨f, hf, by simpa using hn⟩
    · cases h

/-- A frame that starts: complete at once with an empty list, or in flight with its first item on the bus (R97 to R99). -/
theorem Port.start_cases (b : BankCopy) (d : Side) (f : OutputFrame) (p : Port) :
    (transferList b d p.chips f.number = []
        ∧ p.start b d f = { p with inFlight := none, state := .idle, warningSeen := false, derate := false })
      ∨ ∃ it rest, transferList b d p.chips f.number = it :: rest
          ∧ p.start b d f
            = { p with
                state := .sending, txn := .item it 1 (lampTimeout b), warningSeen := false
                inFlight := some { frame := f, items := it :: rest, position := 1 } } := by
  cases h : transferList b d p.chips f.number with
  | nil => exact .inl ⟨rfl, by simp [Port.start, h, Port.complete]⟩
  | cons it rest => exact .inr ⟨it, rest, rfl, by simp [Port.start, h]⟩

/-- The pass-through slot is not touched when a frame arrives (R98). -/
theorem Port.frameArrives_pass (b : BankCopy) (f : OutputFrame) (p : Port) : (p.frameArrives b f).port.pass = p.pass := by
  simp only [Port.frameArrives]
  split <;> try rfl
  rcases p.start_cases b f.side f with ⟨-, h⟩ | ⟨it, rest, -, h⟩ <;> rw [h]

/-- Nor the chip records (R98). -/
theorem Port.frameArrives_chips (b : BankCopy) (f : OutputFrame) (p : Port) :
    (p.frameArrives b f).port.chips = p.chips := by
  simp only [Port.frameArrives]
  split <;> try rfl
  rcases p.start_cases b f.side f with ⟨-, h⟩ | ⟨it, rest, -, h⟩ <;> rw [h]

/-- PORT STOP, the rows of R105: a STOPPED port stays, and every other port is STOPPED with the items not begun as its
remainder, which stay in flight; none of them with a pass-through on the bus. -/
theorem Port.stop_cases (p : Port) :
    (p.state = .stopped ∧ p.stop = p)
      ∨ ((p.state = .idle ∨ p.state = .halted) ∧ p.stop = { p with state := .stopped, remainder := [] })
      ∨ ((p.state = .sending ∨ p.state = .halting) ∧ (∃ a n timeout, p.txn = .pass a n timeout)
          ∧ p.stop = { p with state := .stopped, inFlight := none, remainder := [], pendingFrame := none })
      ∨ ((p.state = .sending ∨ p.state = .halting) ∧ (∀ a n timeout, p.txn ≠ .pass a n timeout)
          ∧ p.stop = { p with state := .stopped, remainder := p.unbegun, pendingFrame := none }) := by
  cases hs : p.state <;> cases ht : p.txn <;> simp [Port.stop, hs, ht]

/-- PORT STOP leaves the chip records, the pass-through slot, the derate condition and the bus (R105). -/
theorem Port.stop_keeps (p : Port) :
    p.stop.chips = p.chips ∧ p.stop.pass = p.pass ∧ p.stop.derate = p.derate ∧ p.stop.txn = p.txn
      ∧ p.stop.state = .stopped := by
  rcases p.stop_cases with ⟨h, e⟩ | ⟨-, e⟩ | ⟨-, -, e⟩ | ⟨-, -, e⟩ <;> rw [e] <;> simp [*]

/-- PORT RESUME leaves the chip records and the pass-through slot (R106). -/
theorem Port.resume_keeps (b : BankCopy) (p : Port) : (p.resume b).chips = p.chips ∧ (p.resume b).pass = p.pass := by
  simp only [Port.resume]
  split
  · split <;> exact ⟨rfl, rfl⟩
  · split
    · split
      · rename_i next hn
        obtain ⟨f, it, -, -, rfl⟩ := Port.nextItem_some hn
        exact ⟨rfl, rfl⟩
      · exact ⟨rfl, rfl⟩
    · exact ⟨rfl, rfl⟩
  · exact ⟨rfl, rfl⟩

/-! ### Going on (R98, R99, R102) -/

/-- Taking the pending frame is the step 2 of R99, whatever the port's state. -/
theorem Port.takePending_takes (b : BankCopy) (d : Side) (p : Port) (st : PortState) :
    Port.TakesPending b d p (Port.takePending b d { p with state := st }) := by
  refine ⟨fun h => by simp [Port.takePending, h], fun f h hs => ?_⟩
  subst hs
  simp only [Port.takePending, h, Port.frameArrives, Port.start, Port.complete]

/-- The port with nothing on its bus goes on by the steps 2 to 4 of R99; with no slot of the queue to give, a result is
held. -/
theorem Port.settle_proceeds (b : BankCopy) (d : Side) (test : Bool) (p : Port) :
    Port.Proceeds b d test false p (p.settle b d test) [] := by
  have ht := fun p => Port.takePending_takes b d p .sending
  refine ⟨fun hw => ?_, fun r e hp hc => ?_, fun r hp hc => ?_⟩
  · have e1 : ∀ q : Port, q.pass = p.pass → q.performWaiting b d = q := by
      intro q hq
      simp only [Port.performWaiting]
      split
      · rename_i r hr; exact absurd (hq.symm.trans hr) (hw r)
      · rfl
    have e2 : p.goOn b d = Port.takePending b d { p with state := .sending } := by
      simp only [Port.goOn]
    refine ⟨rfl, ?_, ?_⟩ <;> cases hs : p.state <;> cases test <;>
      simp [Port.settle, hs, e1, e2, ht]
  · refine ⟨rfl, ?_⟩
    cases hs : p.state <;> cases test <;>
      simp [Port.settle, hs, Port.goOn, Port.performWaiting, Port.perform, hp, hc, passTimeout, idSupervision]
  · refine ⟨rfl, ?_, ?_⟩ <;> cases hs : p.state <;> cases test <;>
      simp [Port.settle, hs, Port.goOn, Port.performWaiting, Port.perform, hp, hc]
    all_goals exact Port.takePending_takes b d { p with pass := .held r none } .sending

/-- Taking the pending frame does not look at the pass-through slot (R99). -/
theorem Port.takePending_withPass (b : BankCopy) (d : Side) (p : Port) (slot : PassSlot) :
    Port.takePending b d { p with pass := slot } = { Port.takePending b d p with pass := slot } := by
  simp only [Port.takePending, Port.start, Port.complete]
  split
  · split <;> rfl
  · rfl

/-- It leaves the chip records (R99). -/
theorem Port.takePending_chips (b : BankCopy) (d : Side) (p : Port) : (p.takePending b d).chips = p.chips := by
  simp only [Port.takePending]
  split
  · rename_i f _
    rcases Port.start_cases b d f { p with pendingFrame := none } with ⟨-, h⟩ | ⟨it, rest, -, h⟩ <;> rw [h]
  · rfl

/-- The steps 2 to 4 of R99 leave the chip records. -/
theorem Port.settle_chips (b : BankCopy) (d : Side) (test : Bool) (p : Port) : (p.settle b d test).chips = p.chips := by
  cases hs : p.state <;> cases test <;> cases hp : p.pass <;>
    simp [Port.settle, hs, hp, Port.goOn, Port.performWaiting, Port.perform, Port.takePending_chips]
  all_goals split <;> simp [Port.takePending_chips]

/-- Taking the pending frame leaves the pass-through slot (R99). -/
theorem Port.takePending_pass (b : BankCopy) (d : Side) (p : Port) : (p.takePending b d).pass = p.pass := by
  simp only [Port.takePending]
  split
  · rename_i f _
    rcases Port.start_cases b d f { p with pendingFrame := none } with ⟨-, h⟩ | ⟨it, rest, -, h⟩ <;> rw [h]
  · rfl

end Sys2Proof.Machine
end

