-- ==== Sys2Proof/Laws/Mode.lean ====
section
/-! SUPPORT. The sticky flags (R163) and the mode decision (R111): what each can do, said once. -/

namespace Sys2Proof.Machine

open Sys2Proof

/-! ### Flags -/

/-- Each flag has a bit of its own, below 16 (R129). -/
theorem Flag.bit_lt (f : Flag) : f.bit < 16 := by
  cases f <;> first | decide | (rename_i d; cases d <;> decide)

/-- The flags in the order of their bits (R129). -/
def Flag.all : List Flag :=
  [.frameError, .manageOverrun, .sceneTruncated, .sceneCrowded, .syncMissing, .syncEarly, .linkLapsed, .linkDown,
   .commitRejected, .testEnded, .driverLost .left, .driverLost .right, .thermalStop .left, .thermalStop .right,
   .frameSuperseded .left, .frameSuperseded .right]

theorem Flag.all_bit (f : Flag) : Flag.all.getD f.bit .frameError = f := by
  cases f <;> first | rfl | (rename_i d; cases d <;> rfl)

/-- Two flags with one bit are one flag (R129). -/
theorem Flag.bit_inj {f g : Flag} (h : f.bit = g.bit) : f = g :=
  f.all_bit.symm.trans (by rw [h]; exact g.all_bit)

/-- The mask of a flag has that flag's bit alone. -/
theorem Flag.mask_bit (f g : Flag) : f.mask.getLsbD g.bit = decide (f = g) := by
  have hf := f.bit_lt
  simp only [Flag.mask, BitVec.getLsbD_twoPow]
  by_cases h : f = g
  · subst h; simp [hf]
  · have : f.bit ≠ g.bit := fun e => h (Flag.bit_inj e)
    simp [h, this]

theorem Flag.maskIf_bit (f g : Flag) (c : Bool) : (f.maskIf c).getLsbD g.bit = (c && decide (f = g)) := by
  cases c <;> simp [Flag.mask_bit]

/-- A flag after raising a mask: set before, or a bit of the mask (R163). -/
@[simp] theorem State.raise_flag (s : State) (m : Word) (f : Flag) :
    (s.raise m).flag f = (s.flag f || m.getLsbD f.bit) := by
  simp [State.flag]

/-- A flag depends on the sticky word alone. -/
theorem State.flag_congr {s t : State} (h : t.mgmt.sticky = s.mgmt.sticky) (f : Flag) : t.flag f = s.flag f := by
  simp [State.flag, h]

/-! ### The mode law -/

theorem State.modeLaw_iff (s : State) : s.modeLaw = true ↔
    s.sup.mode.allowedIn s.link.state = true ∧ s.sup.mode.allowedAt s.sup.lowreqLevel = true ∧
    s.sup.testActive = decide (s.sup.mode = .test) ∧ (s.inReset = true → s.link.state = .down) := by
  simp only [State.modeLaw, Bool.and_eq_true, beq_iff_eq, and_assoc]
  cases s.inReset <;> simp

/-- Under the mode law an active test means the link is UP. -/
theorem State.modeLaw_up {s : State} (h : s.modeLaw = true) : s.sup.testActive = true → s.link.state = .up := by
  obtain ⟨h1, -, h3, -⟩ := (State.modeLaw_iff s).1 h
  rw [h3]
  intro h4
  rw [decide_eq_true_eq] at h4
  simpa [h4, BeamMode.allowedIn] using h1

/-! ### Deciding the mode (R111, R112) -/

theorem State.enterMode_same (s : State) : s.enterMode s.sup.mode = s := by simp [State.enterMode]

/-- A decision at which no active test must end enters the mode of the table. -/
theorem State.decideMode_keep {s : State} (h : s.sup.testActive = true → s.link.state = .up) :
    s.decideMode = s.enterMode (modeFor s.link.state s.sup.testActive s.sup.lowreqLevel) := by
  have e : (s.sup.testActive && decide (s.link.state ≠ .up)) = false := by
    cases ht : s.sup.testActive
    · rfl
    · simp [h ht]
  simp only [State.decideMode, e, Flag.maskIf_false, State.raise_zero]
  simp

/-- A decision that ends an active test sets TEST_ENDED and enters the mode of the table (R117). -/
theorem State.decideMode_end {s : State} (h : s.sup.testActive = true) (h' : s.link.state ≠ .up) :
    s.decideMode =
      ({ s.raise Flag.testEnded.mask with sup := { s.sup with testActive := false } } : State).enterMode
        (modeFor s.link.state false s.sup.lowreqLevel) := by
  simp [State.decideMode, h, h']

/-- A decision leaves every block but the Supervisor, the bend, the ports and the flags. -/
theorem State.decideMode_frame (s : State) :
    s.decideMode.inReset = s.inReset ∧ s.decideMode.rx = s.rx ∧ s.decideMode.link = s.link
      ∧ s.decideMode.motion = s.motion ∧ s.decideMode.table = s.table ∧ s.decideMode.windows = s.windows
      ∧ s.decideMode.composer = s.composer ∧ s.decideMode.segments = s.segments ∧ s.decideMode.time = s.time
      ∧ s.decideMode.bank = s.bank ∧ s.decideMode.pending = s.pending
      ∧ s.decideMode.mgmt.queue = s.mgmt.queue ∧ s.decideMode.mgmt.manage = s.mgmt.manage
      ∧ s.decideMode.mgmt.reportClaim = s.mgmt.reportClaim ∧ s.decideMode.mgmt.statusClaim = s.mgmt.statusClaim
      ∧ s.decideMode.mgmt.warmPending = s.mgmt.warmPending :=
  ⟨rfl, rfl, rfl, rfl, rfl, rfl, rfl, rfl, rfl, rfl, rfl, rfl, rfl, rfl, rfl, rfl⟩

/-- The mode after a decision is the table's (R111). -/
theorem State.decideMode_mode (s : State) :
    s.decideMode.sup.mode = modeFor s.link.state s.sup.testActive s.sup.lowreqLevel := by
  cases h : s.sup.testActive <;> cases h' : s.link.state <;> simp [State.decideMode, State.enterMode, modeFor, h, h']

/-- The Link Monitor changes, flags rise, and the mode is decided again only at a change of link state. -/
theorem State.withLink_cases (s : State) (e : LinkEffect) :
    (e.link.state = s.link.state ∧ s.withLink e = ({ s with link := e.link } : State).raise e.mask)
      ∨ (e.link.state ≠ s.link.state ∧ s.withLink e = (({ s with link := e.link } : State).raise e.mask).decideMode) := by
  by_cases h : e.link.state = s.link.state
  · exact .inl ⟨h, by simp [State.withLink, h]⟩
  · exact .inr ⟨h, by simp [State.withLink, h]⟩

end Sys2Proof.Machine
end

