-- ==== Sys2Proof/Laws/Queue.lean ====
section
/-! SUPPORT. The upstream queue and its claims (R161, R162): what giving free slots to the claims can do. -/

namespace Sys2Proof.Machine

open Sys2Proof

/-! ### Claims one by one -/

/-- A side's claim: nothing to offer or no slot, and nothing changes; else its PASS_RESULT enters and its slot empties. -/
theorem State.admitPass_cases (s : State) (d : Side) :
    (s.admitPass d = s ∧ (((s.ports.get d).pass.offer d).isNone = true ∨ s.mgmt.hasRoom = false))
      ∨ ∃ q result, (s.ports.get d).pass = .held q result ∧ s.mgmt.hasRoom = true
          ∧ s.admitPass d =
            { s with
              mgmt := s.mgmt.push (.passResult d q.chip result)
              ports := s.ports.set d { s.ports.get d with pass := .empty } } := by
  cases hp : (s.ports.get d).pass with
  | held q result =>
    cases hr : s.mgmt.hasRoom
    · exact .inl ⟨by simp [State.admitPass, hp, PassSlot.offer, hr], .inr rfl⟩
    · exact .inr ⟨q, result, rfl, rfl, by simp [State.admitPass, hp, PassSlot.offer, hr]⟩
  | empty => exact .inl ⟨by simp [State.admitPass, hp, PassSlot.offer], .inl rfl⟩
  | waiting q => exact .inl ⟨by simp [State.admitPass, hp, PassSlot.offer], .inl rfl⟩
  | inProgress q => exact .inl ⟨by simp [State.admitPass, hp, PassSlot.offer], .inl rfl⟩

/-- Without a free slot no claim enters (R161). -/
theorem State.admitClaims_full {s : State} (h : s.mgmt.hasRoom = false) : s.admitClaims = s := by
  have h1 : ∀ d, s.admitPass d = s := fun d => by simp only [State.admitPass, h]; split <;> rfl
  simp [State.admitClaims, h1, State.admitStatusNow, State.admitReportNow, h]

/-- With no claim waiting none enters (R161). -/
theorem State.admitClaims_none {s : State} (h : s.claimWaits = false) : s.admitClaims = s := by
  simp only [State.claimWaits, Bool.or_eq_false_iff] at h
  obtain ⟨⟨⟨h1, h2⟩, h3⟩, h4⟩ := h
  have hl : s.admitPass .left = s := by
    simp only [State.admitPass, Sided.get, Option.isSome_eq_false_iff.1 h1 |> Option.isNone_iff_eq_none.1]
  have hr : s.admitPass .right = s := by
    simp only [State.admitPass, Sided.get, Option.isSome_eq_false_iff.1 h2 |> Option.isNone_iff_eq_none.1]
  simp [State.admitClaims, hl, hr, State.admitStatusNow, State.admitReportNow, h3, h4]

/-! ### What entering claims can do -/

/-- `t` is `s` after claims have entered the queue: frames are added while slots are free, claims are cleared, and a side's
held pass-through result may leave its slot EMPTY; nothing else differs. -/
def State.Admits (s t : State) : Prop :=
  ∃ (added : List UpFrame) (status report : Bool) (ports : Sided Port),
    t = { s with
          mgmt := { s.mgmt with queue := s.mgmt.queue ++ added, statusClaim := status, reportClaim := report }
          ports := ports }
    ∧ (status = true → s.mgmt.statusClaim = true) ∧ (report = true → s.mgmt.reportClaim = true)
    ∧ (∀ d, ports.get d = s.ports.get d
        ∨ ∃ q result, (s.ports.get d).pass = .held q result ∧ ports.get d = { s.ports.get d with pass := .empty })
    ∧ (added = [] ∨ s.mgmt.queue.length + added.length + s.mgmt.reserved ≤ 4)

theorem State.Admits.refl (s : State) : s.Admits s :=
  ⟨[], s.mgmt.statusClaim, s.mgmt.reportClaim, s.ports, by simp, id, id, fun _ => .inl rfl, .inl rfl⟩

theorem State.Admits.trans {s t u : State} (h : s.Admits t) (h' : t.Admits u) : s.Admits u := by
  obtain ⟨a, c, e, p, rfl, h1, h2, h3, h4⟩ := h
  obtain ⟨a', c', e', p', rfl, h1', h2', h3', h4'⟩ := h'
  refine ⟨a ++ a', c', e', p', by simp, fun h => h1 (h1' h), fun h => h2 (h2' h), fun d => ?_, ?_⟩
  · rcases h3' d with h5 | ⟨q, r, h5, h6⟩
    · rw [h5]; exact h3 d
    · rcases h3 d with h7 | ⟨q', r', -, h7⟩
      · simp only [h7] at h5 h6; exact .inr ⟨q, r, h5, h6⟩
      · simp [h7] at h5
  · have e1 : ∀ (k : Management) (q : List UpFrame) (x y : Bool),
        ({ k with queue := q, statusClaim := x, reportClaim := y } : Management).reserved = k.reserved := fun _ _ _ _ => rfl
    rcases h4' with rfl | h4'
    · simpa using h4
    · right
      simp only [e1, List.length_append] at h4' ⊢
      omega

theorem State.hasRoom_iff (s : State) : s.mgmt.hasRoom = true ↔ s.mgmt.queue.length + s.mgmt.reserved < 4 := by
  simp [Management.hasRoom]

theorem State.admitPass_admits (s : State) (d : Side) : s.Admits (s.admitPass d) := by
  rcases s.admitPass_cases d with ⟨h, -⟩ | ⟨q, r, h1, h2, h3⟩
  · rw [h]; exact .refl s
  · rw [h3]
    rw [State.hasRoom_iff] at h2
    refine ⟨[_], s.mgmt.statusClaim, s.mgmt.reportClaim, _, rfl, id, id, fun e => ?_, .inr ?_⟩
    · by_cases he : e = d
      · subst he; exact .inr ⟨q, r, h1, by simp⟩
      · exact .inl (Sided.get_set_of_ne _ he _)
    · simp; omega

theorem State.admitStatusNow_admits (s : State) : s.Admits s.admitStatusNow := by
  by_cases h : (s.mgmt.statusClaim && s.mgmt.hasRoom) = true
  · simp only [State.admitStatusNow, h, if_true]
    rw [Bool.and_eq_true, State.hasRoom_iff] at h
    exact ⟨[_], false, s.mgmt.reportClaim, s.ports, rfl, by simp, id, fun _ => .inl rfl, .inr (by simp; omega)⟩
  · rw [Bool.not_eq_true] at h
    simp only [State.admitStatusNow, h]
    exact .refl s

theorem State.admitReportNow_admits (s : State) : s.Admits s.admitReportNow := by
  by_cases h : (s.mgmt.reportClaim && s.mgmt.hasRoom) = true
  · simp only [State.admitReportNow, h, if_true]
    rw [Bool.and_eq_true, State.hasRoom_iff] at h
    exact ⟨[_], s.mgmt.statusClaim, false, s.ports, rfl, id, by simp, fun _ => .inl rfl, .inr (by simp; omega)⟩
  · rw [Bool.not_eq_true] at h
    simp only [State.admitReportNow, h]
    exact .refl s

/-- What giving free slots to the claims can do, said once (R161). -/
theorem State.admitClaims_admits (s : State) : s.Admits s.admitClaims :=
  (((s.admitPass_admits .left).trans (State.admitPass_admits _ .right)).trans (State.admitStatusNow_admits _)).trans
    (State.admitReportNow_admits _)

/-- Entering claims keep the length of the queue within its four slots (R161). -/
theorem State.Admits.queueLaw {s t : State} (h : s.Admits t) (hq : s.mgmt.queueLaw = true) : t.mgmt.queueLaw = true := by
  obtain ⟨a, c, e, p, rfl, -, -, -, h4⟩ := h
  simp only [Management.queueLaw, decide_eq_true_eq] at hq ⊢
  have e1 : ({ s.mgmt with queue := s.mgmt.queue ++ a, statusClaim := c, reportClaim := e } : Management).reserved
      = s.mgmt.reserved := rfl
  rw [e1]
  rcases h4 with rfl | h4
  · simpa using hq
  · simp; omega

/-- A claim of a side that had none still has none after claims have entered. -/
theorem State.Admits.offer_none {s t : State} (h : s.Admits t) (d : Side)
    (hd : ((s.ports.get d).pass.offer d).isSome = false) : ((t.ports.get d).pass.offer d).isSome = false := by
  obtain ⟨a, c, e, p, rfl, -, -, h3, -⟩ := h
  rcases h3 d with h | ⟨q, r, -, h⟩
  · rw [h]; exact hd
  · rw [h]; rfl

/-- A full queue stays full while claims enter. -/
theorem State.Admits.full {s t : State} (h : s.Admits t) (hf : s.mgmt.hasRoom = false) : t.mgmt.hasRoom = false := by
  obtain ⟨a, c, e, p, rfl, -, -, -, h4⟩ := h
  simp only [Management.hasRoom, decide_eq_false_iff_not, Config.queueDepth] at hf ⊢
  have e1 : ({ s.mgmt with queue := s.mgmt.queue ++ a, statusClaim := c, reportClaim := e } : Management).reserved
      = s.mgmt.reserved := rfl
  rw [e1]; simp; omega

/-- After the claims have entered, a free slot and a waiting claim do not stand together (R161). -/
theorem State.admitClaims_claimLaw (s : State) : s.admitClaims.claimLaw = true := by
  simp only [State.claimLaw, Bool.not_eq_true', Bool.and_eq_false_iff]
  by_cases hr : s.admitClaims.mgmt.hasRoom = true
  swap
  · exact .inl (by simpa using hr)
  right
  -- each stage left a free slot, so each claim has entered
  let s1 := s.admitPass .left
  let s2 := s1.admitPass .right
  let s3 := s2.admitStatusNow
  have hs4 : s.admitClaims = s3.admitReportNow := rfl
  have r3 : s3.mgmt.hasRoom = true := by
    by_contra h
    have := (State.admitReportNow_admits s3).full (by simpa using h)
    rw [← hs4, hr] at this; cases this
  have r2 : s2.mgmt.hasRoom = true := by
    by_contra h
    have := (State.admitStatusNow_admits s2).full (by simpa using h)
    have r : s2.admitStatusNow.mgmt.hasRoom = true := r3
    rw [r] at this; cases this
  have r1 : s1.mgmt.hasRoom = true := by
    by_contra h
    have := (State.admitPass_admits s1 .right).full (by simpa using h)
    have r : (s1.admitPass .right).mgmt.hasRoom = true := r2
    rw [r] at this; cases this
  have c1 : ((s1.ports.get .left).pass.offer .left).isSome = false := by
    rcases s.admitPass_cases .left with ⟨h, h' | h'⟩ | ⟨q, r, -, -, h⟩
    · simp only [s1, h]; simpa using h'
    · rw [← h] at h'; rw [show (s.admitPass .left).mgmt.hasRoom = true from r1] at h'; cases h'
    · simp only [s1, h]; simp [PassSlot.offer]
  have c2 : ((s2.ports.get .right).pass.offer .right).isSome = false := by
    rcases s1.admitPass_cases .right with ⟨h, h' | h'⟩ | ⟨q, r, -, -, h⟩
    · simp only [s2, h]; simpa using h'
    · rw [← h] at h'; rw [show (s1.admitPass .right).mgmt.hasRoom = true from r2] at h'; cases h'
    · simp only [s2, h]; simp [PassSlot.offer]
  have c3 : s3.mgmt.statusClaim = false := by
    simp only [s3, State.admitStatusNow, r2, Bool.and_true]
    split
    · rfl
    · rename_i hc; exact Bool.eq_false_iff.2 hc
  have c4 : s.admitClaims.mgmt.reportClaim = false := by
    simp only [hs4, State.admitReportNow, r3, Bool.and_true]
    split
    · rfl
    · rename_i hc; exact Bool.eq_false_iff.2 hc
  have a23 : s2.Admits s.admitClaims := (State.admitStatusNow_admits s2).trans (State.admitReportNow_admits s3)
  have d1 := ((State.admitPass_admits s1 .right).trans a23).offer_none .left c1
  have d2 := a23.offer_none .right c2
  have d3 : s.admitClaims.mgmt.statusClaim = false := by
    obtain ⟨a, c, e, p, h, h1, -⟩ := State.admitReportNow_admits s3
    rw [hs4, h]
    cases hc : c
    · rfl
    · exact absurd (h1 hc) (by simp [c3])
  simp only [State.claimWaits, Bool.or_eq_false_iff]
  exact ⟨⟨⟨d1, d2⟩, d3⟩, c4⟩

/-- An event on a port that leaves what its pass-through slot offers lets no claim enter (R161). -/
theorem State.admitClaims_port {s : State} {d : Side} {p : Port} {m : Word} (h : s.claimLaw = true)
    (hp : p.pass.offer d = (s.ports.get d).pass.offer d) :
    (({ s with ports := s.ports.set d p } : State).raise m).admitClaims
      = ({ s with ports := s.ports.set d p } : State).raise m := by
  by_cases hr : s.mgmt.hasRoom = true
  · apply State.admitClaims_none
    simp only [State.claimLaw, hr, Bool.true_and, Bool.not_eq_true'] at h
    simp only [State.claimWaits] at h ⊢
    cases d <;>
      simp only [Sided.get, Sided.set, State.raise_ports, State.raise_statusClaim, State.raise_reportClaim] at hp ⊢ <;>
      rw [hp] <;> exact h
  · apply State.admitClaims_full
    simp only [Bool.not_eq_true] at hr
    exact hr

end Sys2Proof.Machine
end

