-- ==== Sys2Proof/Laws/Bus.lean ====
section
/-! SUPPORT. An event on a lamp bus as a whole: the port that goes on, and the PASS_RESULT that enters the queue with it
(R99, R102, R103, R161). -/

namespace Sys2Proof.Machine

open Sys2Proof

/-- Where no claim waits, no side offers a PASS_RESULT (R161). -/
theorem State.offer_none_of {s : State} (h : s.claimWaits = false) (d : Side) : (s.ports.get d).pass.offer d = none := by
  simp only [State.claimWaits, Bool.or_eq_false_iff, Option.isSome_eq_false_iff, Option.isNone_iff_eq_none] at h
  cases d
  · exact h.1.1.1
  · exact h.1.1.2

/-- A side that offers nothing gets no slot (R161). -/
theorem State.admitPass_none {s : State} {d : Side} (h : (s.ports.get d).pass.offer d = none) : s.admitPass d = s := by
  simp only [State.admitPass, h]

/-- An event on a port that forms a pass-through result: its PASS_RESULT enters where a slot is free, and no other claim
waits there; else the result is held (R103, R161). -/
theorem State.admitClaims_held {s : State} {d : Side} {p : Port} {r : PassRequest} {v : Option Word} {m : Word}
    (h : s.claimLaw = true) (ho : (s.ports.get d).pass.offer d = none) (hp : p.pass = .held r v) :
    (({ s with ports := s.ports.set d p } : State).raise m).admitClaims
      = ({ s with
          ports := s.ports.set d { p with pass := if s.mgmt.hasRoom = true then .empty else .held r v }
          mgmt := { s.mgmt with
            queue := s.mgmt.queue ++ if s.mgmt.hasRoom = true then [.passResult d r.chip v] else [] } } : State).raise m := by
  by_cases hr : s.mgmt.hasRoom = true
  · have hw : s.claimWaits = false := by simpa [State.claimLaw, hr] using h
    let t : State := ({ s with ports := s.ports.set d p } : State).raise m
    let u : State := ({ s with
      ports := s.ports.set d { p with pass := .empty }
      mgmt := { s.mgmt with queue := s.mgmt.queue ++ [.passResult d r.chip v] } } : State).raise m
    have htu : t.admitPass d = u := by
      have e : (t.ports.get d).pass.offer d = some (.passResult d r.chip v) := by simp [t, hp, PassSlot.offer]
      have e2 : t.mgmt.hasRoom = true := hr
      simp only [State.admitPass, e, e2, if_true]
      cases d <;> rfl
    have hu : u.claimWaits = false := by
      simp only [State.claimWaits, Bool.or_eq_false_iff] at hw ⊢
      obtain ⟨⟨⟨hl, hright⟩, hs⟩, hn⟩ := hw
      cases d
      · exact ⟨⟨⟨rfl, hright⟩, hs⟩, hn⟩
      · exact ⟨⟨⟨hl, rfl⟩, hs⟩, hn⟩
    have hup : ∀ e, u.admitPass e = u := fun e => State.admitPass_none (by
      have := State.offer_none_of hu e; exact this)
    have key : t.admitClaims = u.admitClaims := by
      simp only [State.admitClaims]
      cases d
      · rw [htu, hup .left]
      · have : t.admitPass .left = t := State.admitPass_none (State.offer_none_of hw .left)
        rw [this, htu, hup .left, hup .right]
    show t.admitClaims = _
    rw [key, State.admitClaims_none hu]
    simp [u, hr]
  · have hf : s.mgmt.hasRoom = false := by simpa using hr
    have e : ({ p with pass := PassSlot.held r v } : Port) = p := by rw [← hp]
    rw [State.admitClaims_full (by exact hf)]
    simp [hf, e]

/-- An event on a bus that ends an item, after which the port goes on by the steps 2 to 4 of R99, said once: the port that
follows, the frames that enter the queue, the flags of the event, and the chip records (R99, R102, R103). -/
theorem State.busEvent_settles {s : State} {d : Side} {act : BankCopy → Bool → Port → PortEffect} {p : Port} {m : Word}
    (h : s.claimLaw = true) (hp : p.pass = (s.ports.get d).pass)
    (ha : act s.bank.active (decide (s.sup.mode = .test)) (s.ports.get d)
      = { port := p.settle s.bank.active d (decide (s.sup.mode = .test)), mask := m }) :
    ∃ q added, s.busEvent d act
        = ({ s with
            ports := s.ports.set d q
            mgmt := { s.mgmt with queue := s.mgmt.queue ++ added } } : State).raise m
      ∧ ((∀ r, p.pass ≠ .waiting r) → added = [])
      ∧ Port.Proceeds s.bank.active d (decide (s.sup.mode = .test)) s.mgmt.hasRoom p q added
      ∧ q.chips = p.chips := by
  simp only [State.busEvent, ha]
  generalize decide (s.sup.mode = .test) = test
  have hset := Port.settle_proceeds s.bank.active d test p
  by_cases hw : ∃ r, p.pass = .waiting r ∧ chipEntry s.bank.active d r.chip = none
  · obtain ⟨r, hr, hc⟩ := hw
    have hq : (p.settle s.bank.active d test).pass = .held r none := by
      cases hs : p.state <;> cases test <;>
        simp [Port.settle, hs, Port.goOn, Port.performWaiting, Port.perform, hr, hc, Port.takePending_pass]
    rw [State.admitClaims_held h (by rw [← hp, hr]; rfl) hq]
    refine ⟨_, _, rfl, fun hn => absurd hr (hn r), ⟨fun hn => absurd hr (hn r),
      fun r' e' hr' hc' => ?_, fun r' hr' hc' => ?_⟩, p.settle_chips _ _ _⟩
    · rw [hr] at hr'; cases hr'; rw [hc] at hc'; cases hc'
    · rw [hr] at hr'; cases hr'
      refine ⟨rfl, fun hsend => ?_, fun hsend => ?_⟩
      · have e : p.settle s.bank.active d test
            = Port.takePending s.bank.active d { p with state := .sending, pass := .held r none } := by
          revert hsend
          cases hs : p.state <;> cases test <;> simp [Port.settle, hs, Port.goOn, Port.perform, hr, hc]
        rw [e, ← Port.takePending_withPass]
        exact Port.takePending_takes _ d { p with pass := if s.mgmt.hasRoom = true then .empty else .held r none } .sending
      · revert hsend
        cases hs : p.state <;> cases test <;> simp [Port.settle, hs, Port.performWaiting, Port.perform, hr, hc]
  · have ho : (p.settle s.bank.active d test).pass.offer d = (s.ports.get d).pass.offer d := by
      rw [← hp]
      cases hpass : p.pass with
      | waiting r =>
        cases hc : chipEntry s.bank.active d r.chip with
        | none => exact absurd ⟨r, hpass, hc⟩ hw
        | some e =>
          cases hs : p.state <;> cases test <;>
            simp [Port.settle, hs, Port.goOn, Port.performWaiting, Port.perform, hpass, hc, PassSlot.offer]
      | _ =>
        cases hs : p.state <;> cases test <;>
          simp [Port.settle, hs, Port.goOn, Port.performWaiting, hpass, Port.takePending_pass]
    rw [State.admitClaims_port h ho]
    exact ⟨p.settle s.bank.active d test, [], by simp, fun _ => rfl,
      ⟨hset.1, hset.2.1, fun r hr hc => absurd ⟨r, hr, hc⟩ hw⟩, p.settle_chips _ _ _⟩

/-- An event on a bus that ends a pass-through, said once: the result enters the queue or is held, and the port keeps its
state, goes on by the steps 2 and 3 of R99, or begins the next item of the frame a resume left (R99, R102, R103, R106). -/
theorem State.busEvent_passEnds {s : State} {d : Side} {act : BankCopy → Bool → Port → PortEffect} {r : PassRequest}
    {v : Option Word} {m : Word} (h : s.claimLaw = true) (hr : (s.ports.get d).pass = .inProgress r)
    (ha : act s.bank.active (decide (s.sup.mode = .test)) (s.ports.get d)
      = { port := (s.ports.get d).passEnded s.bank.active d (decide (s.sup.mode = .test)) v, mask := m }) :
    let p : Port := { s.ports.get d with
      txn := .quiet, pass := if s.mgmt.hasRoom = true then .empty else .held r v }
    ∃ q, s.busEvent d act
        = ({ s with
            ports := s.ports.set d q
            mgmt := { s.mgmt with
              queue := s.mgmt.queue ++ if s.mgmt.hasRoom = true then [.passResult d r.chip v] else [] } } : State).raise m
      ∧ q.chips = p.chips
      ∧ (p.state = .idle ∨ p.state = .halted ∨ p.state = .stopped → q = p)
      ∧ (p.state = .sending ∨ p.state = .halting → p.inFlight = none →
          Port.Proceeds s.bank.active d (decide (s.sup.mode = .test)) s.mgmt.hasRoom p q [])
      ∧ (∀ q', p.state = .sending ∨ p.state = .halting → p.nextItem s.bank.active = some q' → q = q') := by
  intro p
  let p0 : Port := { s.ports.get d with txn := .quiet, pass := .held r v }
  have hstate : p.state = (s.ports.get d).state := rfl
  have hpass : ∀ x, p.pass ≠ .waiting x := by
    intro x; simp only [p]; split <;> simp
  generalize hq0 : (s.ports.get d).passEnded s.bank.active d (decide (s.sup.mode = .test)) v = q0 at ha
  have hq0' : q0 = if p0.state = .sending ∨ p0.state = .halting then
      match p0.nextItem s.bank.active with
      | some next => next
      | none => if p0.inFlight.isSome then p0.complete.settle s.bank.active d (decide (s.sup.mode = .test))
          else p0.settle s.bank.active d (decide (s.sup.mode = .test))
      else p0 := by
    rw [← hq0]; simp only [Port.passEnded, hr]; rfl
  have hset : ∀ q : Port, q.pass = .held r v →
      (q.settle s.bank.active d (decide (s.sup.mode = .test))).pass = .held r v := by
    intro q hq
    generalize decide (s.sup.mode = .test) = test
    cases hs : q.state <;> cases test <;>
      simp [Port.settle, hs, hq, Port.goOn, Port.performWaiting, Port.takePending_pass]
  have hheld : q0.pass = .held r v := by
    rw [hq0']
    split
    · split
      · rename_i next hn
        obtain ⟨f, it, -, -, rfl⟩ := Port.nextItem_some hn
        rfl
      · split
        · exact hset _ rfl
        · exact hset _ rfl
    · rfl
  have hchips : q0.chips = p.chips := by
    rw [hq0']
    split
    · split
      · rename_i next hn
        obtain ⟨f, it, -, -, rfl⟩ := Port.nextItem_some hn
        rfl
      · split <;> exact Port.settle_chips _ _ _ _
    · rfl
  simp only [State.busEvent, ha]
  rw [State.admitClaims_held h (by rw [hr]; rfl) hheld]
  refine ⟨_, rfl, hchips, ?_, ?_, ?_⟩
  · intro hs
    have : ¬ (p0.state = .sending ∨ p0.state = .halting) := by
      show ¬ (p.state = .sending ∨ p.state = .halting)
      rcases hs with hs | hs | hs <;> simp [hs]
    rw [if_neg this] at hq0'
    rw [hq0']
  · intro hs hf
    have hf' : p0.inFlight = none := hf
    have e : q0 = p0.settle s.bank.active d (decide (s.sup.mode = .test)) := by
      rw [hq0', if_pos hs]
      simp [Port.nextItem, hf']
    refine ⟨fun _ => ⟨rfl, fun hsend => ?_, fun hsend => ?_⟩, fun x _ hx => absurd hx (hpass x),
      fun x hx => absurd hx (hpass x)⟩
    · have e2 : q0 = Port.takePending s.bank.active d { p0 with state := .sending } := by
        rw [e]; revert hsend
        generalize decide (s.sup.mode = .test) = test
        have hs : (s.ports.get d).state = .sending ∨ (s.ports.get d).state = .halting := hs
        rcases hs with hs | hs <;> cases test <;> simp [Port.settle, hstate, hs, Port.goOn, p0]
      rw [e2, ← Port.takePending_withPass]
      exact Port.takePending_takes _ d p .sending
    · rw [e]; revert hsend
      generalize decide (s.sup.mode = .test) = test
      have hs : (s.ports.get d).state = .sending ∨ (s.ports.get d).state = .halting := hs
      rcases hs with hs | hs <;> cases test <;> simp [Port.settle, hs, Port.performWaiting, p0, p]
  · intro q' hs hn
    obtain ⟨f, it, h1, h2, rfl⟩ := Port.nextItem_some hn
    have h1' : p0.inFlight = some f := h1
    have hn0 : p0.nextItem s.bank.active = some { p0 with
        txn := .item it 1 (lampTimeout s.bank.active)
        inFlight := some { f with position := f.position + 1 }, remainder := p0.remainder.tail } := by
      simp only [Port.nextItem, h1', h2, Port.beginItem]
    rw [hq0', if_pos hs, hn0]

end Sys2Proof.Machine
end

