-- ==== Sys2Proof/Laws/Event.lean ====
section
/-! SUPPORT. The output frame event stage by stage (R138, R155, R162): what each stage leaves, and what it sets. -/

namespace Sys2Proof.Machine

open Sys2Proof

/-! ### Changes of the Link Monitor -/

/-- A change at the Link Monitor sets its record and leaves every block but the Supervisor, the bend, the ports and the
flags. -/
theorem State.withLink_frame (s : State) (e : LinkEffect) :
    (s.withLink e).link = e.link ∧ (s.withLink e).inReset = s.inReset ∧ (s.withLink e).rx = s.rx
      ∧ (s.withLink e).motion = s.motion ∧ (s.withLink e).table = s.table ∧ (s.withLink e).windows = s.windows
      ∧ (s.withLink e).composer = s.composer ∧ (s.withLink e).segments = s.segments ∧ (s.withLink e).time = s.time
      ∧ (s.withLink e).bank = s.bank ∧ (s.withLink e).pending = s.pending
      ∧ (s.withLink e).mgmt.queue = s.mgmt.queue ∧ (s.withLink e).mgmt.manage = s.mgmt.manage
      ∧ (s.withLink e).mgmt.reportClaim = s.mgmt.reportClaim ∧ (s.withLink e).mgmt.statusClaim = s.mgmt.statusClaim
      ∧ (s.withLink e).mgmt.warmPending = s.mgmt.warmPending := by
  rcases s.withLink_cases e with ⟨-, h⟩ | ⟨-, h⟩ <;> rw [h] <;>
    exact ⟨rfl, rfl, rfl, rfl, rfl, rfl, rfl, rfl, rfl, rfl, rfl, rfl, rfl, rfl, rfl, rfl⟩

/-! ### Composition complete (R18) -/

/-- Composition complete changes the composer, the segment records, the ports and the flags alone. -/
theorem State.completeComposition_frame (s : State) :
    s.completeComposition.inReset = s.inReset ∧ s.completeComposition.rx = s.rx ∧ s.completeComposition.link = s.link
      ∧ s.completeComposition.motion = s.motion ∧ s.completeComposition.bend = s.bend
      ∧ s.completeComposition.table = s.table ∧ s.completeComposition.windows = s.windows
      ∧ s.completeComposition.sup = s.sup ∧ s.completeComposition.time = s.time
      ∧ s.completeComposition.bank = s.bank ∧ s.completeComposition.pending = s.pending
      ∧ s.completeComposition.mgmt.queue = s.mgmt.queue ∧ s.completeComposition.mgmt.manage = s.mgmt.manage
      ∧ s.completeComposition.mgmt.reportClaim = s.mgmt.reportClaim
      ∧ s.completeComposition.mgmt.statusClaim = s.mgmt.statusClaim
      ∧ s.completeComposition.mgmt.warmPending = s.mgmt.warmPending
      ∧ s.completeComposition.composer.streams = s.composer.streams
      ∧ s.completeComposition.composer.inFlight = none := by
  cases h : s.composer.inFlight with
  | none =>
    have e : s.completeComposition = s := by simp only [State.completeComposition, h]
    rw [e]
    exact ⟨rfl, rfl, rfl, rfl, rfl, rfl, rfl, rfl, rfl, rfl, rfl, rfl, rfl, rfl, rfl, rfl, rfl, h⟩
  | some x =>
    simp [State.completeComposition, h]

/-! ### The pending commit (R155) -/

/-- What the commit stage of an output frame event can do: nothing without a pending commit; a rejection; or an
application with the blocks' acts. -/
theorem State.commitAtEvent_cases (s : State) :
    (s.bank.commitPending = false ∧ s.commitAtEvent = s)
      ∨ (∃ id off, s.bank.commitPending = true ∧ bankFault s.bank.staged = some (id, off)
          ∧ s.commitAtEvent
            = ({ s with bank := { s.bank with commitPending := false, outcome := .rejected id off } } : State).raise
                Flag.commitRejected.mask)
      ∨ (s.bank.commitPending = true ∧ bankFault s.bank.staged = none
          ∧ s.commitAtEvent
            = ({ s with
                  bank := { s.bank with
                    active := s.bank.staged, commitPending := false, outcome := .applied
                    commitCount := s.bank.commitCount + 1#16 }
                  bend := s.bend.commitClamp s.bank.staged
                  ports := Sided.of (fun d => (s.ports.get d).commit s.bank.active s.bank.staged d) } :
                State).withLink (s.link.commit s.bank.staged s.time.msClock)) := by
  cases hp : s.bank.commitPending
  · exact .inl ⟨rfl, by simp [State.commitAtEvent, hp]⟩
  · cases hf : bankFault s.bank.staged with
    | none =>
      refine .inr (.inr ⟨rfl, rfl, ?_⟩)
      simp [State.commitAtEvent, hp, TableBank.decide, TableBank.passes, hf]
    | some x =>
      obtain ⟨id, off⟩ := x
      refine .inr (.inl ⟨id, off, rfl, rfl, ?_⟩)
      simp [State.commitAtEvent, hp, TableBank.decide, TableBank.passes, hf]

/-- What the commit stage leaves. -/
theorem State.commitAtEvent_frame (s : State) :
    s.commitAtEvent.inReset = s.inReset ∧ s.commitAtEvent.rx = s.rx ∧ s.commitAtEvent.motion = s.motion
      ∧ s.commitAtEvent.table = s.table ∧ s.commitAtEvent.windows = s.windows ∧ s.commitAtEvent.composer = s.composer
      ∧ s.commitAtEvent.segments = s.segments ∧ s.commitAtEvent.time = s.time ∧ s.commitAtEvent.pending = s.pending
      ∧ s.commitAtEvent.mgmt.queue = s.mgmt.queue ∧ s.commitAtEvent.mgmt.manage = s.mgmt.manage
      ∧ s.commitAtEvent.mgmt.reportClaim = s.mgmt.reportClaim
      ∧ s.commitAtEvent.mgmt.statusClaim = s.mgmt.statusClaim
      ∧ s.commitAtEvent.mgmt.warmPending = s.mgmt.warmPending
      ∧ s.commitAtEvent.bank.commitPending = false ∧ s.commitAtEvent.bank.staged = s.bank.staged := by
  rcases s.commitAtEvent_cases with ⟨hp, h⟩ | ⟨id, off, -, -, h⟩ | ⟨-, -, h⟩
  · rw [h]
    exact ⟨rfl, rfl, rfl, rfl, rfl, rfl, rfl, rfl, rfl, rfl, rfl, rfl, rfl, rfl, hp, rfl⟩
  · rw [h]
    exact ⟨rfl, rfl, rfl, rfl, rfl, rfl, rfl, rfl, rfl, rfl, rfl, rfl, rfl, rfl, rfl, rfl⟩
  · rw [h]
    obtain ⟨-, h1, h2, h3, h4, h5, h6, h7, h8, h9, h10, h11, h12, h13, h14, h15⟩ :=
      State.withLink_frame
        ({ s with
            bank := { s.bank with
              active := s.bank.staged, commitPending := false, outcome := .applied
              commitCount := s.bank.commitCount + 1#16 }
            bend := s.bend.commitClamp s.bank.staged
            ports := Sided.of (fun d => (s.ports.get d).commit s.bank.active s.bank.staged d) } : State)
        (s.link.commit s.bank.staged s.time.msClock)
    exact ⟨h1, h2, h3, h4, h5, h6, h7, h8, h10, h11, h12, h13, h14, h15, by rw [h9], by rw [h9]⟩

/-! ### The STATUS frames (R162) -/

/-- The periodic STATUS enters or is skipped; nothing else differs (R162). -/
theorem State.periodicStatus_cases (s : State) :
    s.periodicStatus = s
      ∨ (s.mgmt.hasRoom = true
          ∧ s.periodicStatus = { s with mgmt := s.mgmt.push (.status (s.statusReport .periodic)) }) := by
  by_cases h : statusPeriod s.bank.active ≠ 0 ∧ s.time.frameCounter.toNat % statusPeriod s.bank.active = 0
      ∧ s.mgmt.hasRoom = true
  · exact .inr ⟨h.2.2, by simp only [State.periodicStatus, if_pos h]⟩
  · exact .inl (by simp only [State.periodicStatus, if_neg h])

/-- The periodic STATUS is one more frame at most, in a free slot. -/
theorem State.periodicStatus_admits (s : State) : s.Admits s.periodicStatus := by
  rcases s.periodicStatus_cases with h | ⟨hr, h⟩
  · rw [h]; exact .refl s
  · rw [h]
    rw [State.hasRoom_iff] at hr
    exact ⟨[_], s.mgmt.statusClaim, s.mgmt.reportClaim, s.ports, rfl, id, id, fun _ => .inl rfl, .inr (by simp; omega)⟩

/-- The STATUS frames of an event: the report-now claim is made, and frames enter in free slots. -/
theorem State.statusAtEvent_admits (s : State) (requested : Bool) :
    ({ s with mgmt := { s.mgmt with reportClaim := s.mgmt.reportClaim || requested } } : State).Admits
      (s.statusAtEvent requested) :=
  (State.admitClaims_admits _).trans (State.periodicStatus_admits _)

/-- What entering claims leaves. -/
theorem State.Admits.frame {s t : State} (h : s.Admits t) :
    t.inReset = s.inReset ∧ t.rx = s.rx ∧ t.link = s.link ∧ t.motion = s.motion ∧ t.bend = s.bend
      ∧ t.table = s.table ∧ t.windows = s.windows ∧ t.composer = s.composer ∧ t.segments = s.segments
      ∧ t.sup = s.sup ∧ t.time = s.time ∧ t.bank = s.bank ∧ t.pending = s.pending
      ∧ t.mgmt.sticky = s.mgmt.sticky ∧ t.mgmt.reportRequest = s.mgmt.reportRequest
      ∧ t.mgmt.manage = s.mgmt.manage ∧ t.mgmt.warmPending = s.mgmt.warmPending := by
  obtain ⟨a, c, e, p, rfl, -⟩ := h
  exact ⟨rfl, rfl, rfl, rfl, rfl, rfl, rfl, rfl, rfl, rfl, rfl, rfl, rfl, rfl, rfl, rfl, rfl⟩

/-! ### The whole event -/

/-- The state at which the blocks make their decisions: after composition, commit, SYNC_MISSING and the strobe. -/
def State.atDecisions (s : State) (cause : FrameCause) : State :=
  let s1 := (s.completeComposition.beginEvent cause).commitAtEvent
  let s2 := s1.raise (Flag.syncMissing.maskIf (cause == .flywheel))
  { s2 with time := s2.time.syncFrame s.bank.active s2.bank.active }

/-- The event is its decisions and its STATUS frames. -/
theorem State.outputFrameEvent_eq (s : State) (cause : FrameCause) :
    s.outputFrameEvent cause
      = (s.atDecisions cause).frameDecisions.statusAtEvent s.completeComposition.mgmt.reportRequest := by
  have h : s.completeComposition.bank = s.bank := s.completeComposition_frame.2.2.2.2.2.2.2.2.2.1
  simp only [State.outputFrameEvent, State.atDecisions, h]

/-- What the stages before the decisions leave. -/
theorem State.atDecisions_frame (s : State) (cause : FrameCause) :
    (s.atDecisions cause).inReset = s.inReset ∧ (s.atDecisions cause).rx = s.rx
      ∧ (s.atDecisions cause).motion = s.motion ∧ (s.atDecisions cause).table = s.table
      ∧ (s.atDecisions cause).windows = s.windows ∧ (s.atDecisions cause).pending = s.pending
      ∧ (s.atDecisions cause).mgmt.queue = s.mgmt.queue ∧ (s.atDecisions cause).mgmt.manage = s.mgmt.manage
      ∧ (s.atDecisions cause).mgmt.reportClaim = s.mgmt.reportClaim
      ∧ (s.atDecisions cause).mgmt.statusClaim = s.mgmt.statusClaim
      ∧ (s.atDecisions cause).composer = s.completeComposition.composer
      ∧ (s.atDecisions cause).segments = s.completeComposition.segments
      ∧ (s.atDecisions cause).time
          = (s.time.frame s.bank.active cause).syncFrame s.bank.active (s.atDecisions cause).bank.active := by
  obtain ⟨h1, h2, h3, h4, h5, h6, h7, h8, h9, h10, h11, h12, h13, -⟩ :=
    (s.completeComposition.beginEvent cause).commitAtEvent_frame
  obtain ⟨g1, g2, -, g4, -, g6, g7, -, g9, g10, g11, g12, g13, g14, g15, -⟩ := s.completeComposition_frame
  refine ⟨h1.trans g1, h2.trans g2, h3.trans g4, h4.trans g6, h5.trans g7, h9.trans g11, h10.trans g12, h11.trans g13,
    h12.trans g14, h13.trans g15, h6, h7, ?_⟩
  have e : (s.completeComposition.beginEvent cause).time = s.time.frame s.bank.active cause := by
    simp only [State.beginEvent, g9, g10]
  simp only [State.atDecisions, State.raise_time, h8, e, State.raise_bank]

end Sys2Proof.Machine
end

