-- ==== Sys2Proof/Laws/Frames.lean ====
section
/-! SUPPORT. The bytes of link frames: each field and payload is read back as it was laid out (R125 to R128). -/

namespace Sys2Proof

/-- A word's bytes are read back as the word. -/
theorem wordOf_bytes (w : Word) : wordOf (w.extractLsb' 8 8) (w.extractLsb' 0 8) = w := by
  simp only [wordOf]
  apply BitVec.eq_of_getLsbD_eq
  intro i hi
  rw [BitVec.getLsbD_append]
  by_cases h : i < 8
  · simp [h]
  · have h1 : 8 + (i - 8) = i := by omega
    have h2 : i - 8 < 8 := by omega
    simp [h, h1, h2]

@[simp] theorem wordBytes_length (w : Word) : (wordBytes w).length = 2 := rfl

@[simp] theorem wordsBytes_length (ws : List Word) : (wordsBytes ws).length = 2 * ws.length := by
  induction ws with
  | nil => rfl
  | cons w ws ih => simp [wordsBytes, ih]; omega

/-- Words laid out in bytes are read back as the words. -/
theorem parseWords_bytes (ws : List Word) : parseWords (wordsBytes ws) = some ws := by
  induction ws with
  | nil => rfl
  | cons w ws ih =>
    show (parseWords (wordsBytes ws)).map (fun x => wordOf (w.extractLsb' 8 8) (w.extractLsb' 0 8) :: x) = _
    rw [ih, wordOf_bytes]
    rfl

/-- A MOTION payload is read back as it was laid out (R126). -/
theorem parseMotion_bytes (m : MotionPayload) : parseMotion (motionBytes m) = some m := by
  simp only [motionBytes, wordBytes, List.cons_append, List.nil_append, parseMotion, wordOf_bytes]

/-- The bits of a two-byte field. -/
theorem wordOf_bit (hi lo : Byte) (i : Nat) :
    (wordOf hi lo).getLsbD i = if i < 8 then lo.getLsbD i else hi.getLsbD (i - 8) := by
  simp only [wordOf]
  rw [BitVec.getLsbD_append]

/-- A word read from two bytes is laid out in them again. -/
theorem wordBytes_of (hi lo : Byte) : wordBytes (wordOf hi lo) = [hi, lo] := by
  simp only [wordBytes, List.cons.injEq, and_true]
  constructor <;> apply BitVec.eq_of_getLsbD_eq <;> intro i hb <;> rw [BitVec.getLsbD_extractLsb', wordOf_bit]
  · rw [if_neg (by omega), show 8 + i - 8 = i by omega, hb |> decide_eq_true, Bool.true_and]
  · rw [Nat.zero_add, if_pos hb, hb |> decide_eq_true, Bool.true_and]

/-- Bytes read as words are the words' bytes. -/
theorem parseWords_some {bs : List Byte} {ws : List Word} (h : parseWords bs = some ws) : wordsBytes ws = bs := by
  induction bs using parseWords.induct generalizing ws with
  | case1 => simp [parseWords] at h; subst h; rfl
  | case2 => simp [parseWords] at h
  | case3 hi lo rest ih =>
    simp only [parseWords, Option.map_eq_some_iff] at h
    obtain ⟨vs, hv, rfl⟩ := h
    simp only [wordsBytes, wordBytes_of, ih hv, List.cons_append, List.nil_append]

/-- Report records are read back as they were laid out (R127). -/
theorem parseReports_bytes (rs : List SceneReport) : parseReports rs.length (rs.flatMap reportBytes) = some rs := by
  induction rs with
  | nil => rfl
  | cons r rs ih =>
    simp only [List.length_cons, List.flatMap_cons, reportBytes, wordBytes, List.cons_append, List.nil_append,
      parseReports, ih, Option.map_some, wordOf_bytes]

/-- Command records with parameter lengths that fit a byte are read back as they were laid out (R128). -/
theorem parseRecords_bytes (rs : List RawRecord) (h : ∀ r ∈ rs, r.2.length ≤ 255) :
    parseRecords rs.length (rs.flatMap recordBytes) = some rs := by
  induction rs with
  | nil => rfl
  | cons r rs ih =>
    have hl : (BitVec.ofNat 8 r.2.length).toNat = r.2.length := by
      have := h r List.mem_cons_self
      simp only [BitVec.toNat_ofNat]
      omega
    have hr := ih fun x hx => h x (List.mem_cons_of_mem _ hx)
    simp only [List.length_cons, List.flatMap_cons, recordBytes, List.cons_append, parseRecords, hl, List.drop_left,
      List.take_left, hr, Option.map_some, List.length_append, Nat.le_add_right, if_true]

end Sys2Proof
end

