-- ==== Sys2Proof/Laws/Manage.lean ====
section
/-! SUPPORT. The records of a MANAGE frame (R158 to R160): what a record does, said once for the executed and once for the
unexecuted ones, and each command's own part under its parameters; and the END of the queue's head (R161, R164). -/

namespace Sys2Proof.Machine

open Sys2Proof

/-- The state in which a record's command runs: its MANAGE frame is open. -/
def State.opened (s : State) (r : ManageRecord) : State :=
  { s with mgmt := { s.mgmt with manage := some (s.frameFor r) } }

/-! What the opened state holds, field by field. -/

@[simp] theorem State.opened_inReset (s : State) (r : ManageRecord) : (s.opened r).inReset = s.inReset := rfl
@[simp] theorem State.opened_rx (s : State) (r : ManageRecord) : (s.opened r).rx = s.rx := rfl
@[simp] theorem State.opened_link (s : State) (r : ManageRecord) : (s.opened r).link = s.link := rfl
@[simp] theorem State.opened_motion (s : State) (r : ManageRecord) : (s.opened r).motion = s.motion := rfl
@[simp] theorem State.opened_bend (s : State) (r : ManageRecord) : (s.opened r).bend = s.bend := rfl
@[simp] theorem State.opened_table (s : State) (r : ManageRecord) : (s.opened r).table = s.table := rfl
@[simp] theorem State.opened_windows (s : State) (r : ManageRecord) : (s.opened r).windows = s.windows := rfl
@[simp] theorem State.opened_composer (s : State) (r : ManageRecord) : (s.opened r).composer = s.composer := rfl
@[simp] theorem State.opened_segments (s : State) (r : ManageRecord) : (s.opened r).segments = s.segments := rfl
@[simp] theorem State.opened_ports (s : State) (r : ManageRecord) : (s.opened r).ports = s.ports := rfl
@[simp] theorem State.opened_sup (s : State) (r : ManageRecord) : (s.opened r).sup = s.sup := rfl
@[simp] theorem State.opened_time (s : State) (r : ManageRecord) : (s.opened r).time = s.time := rfl
@[simp] theorem State.opened_bank (s : State) (r : ManageRecord) : (s.opened r).bank = s.bank := rfl
@[simp] theorem State.opened_pending (s : State) (r : ManageRecord) : (s.opened r).pending = s.pending := rfl
@[simp] theorem State.opened_queue (s : State) (r : ManageRecord) : (s.opened r).mgmt.queue = s.mgmt.queue := rfl
@[simp] theorem State.opened_sticky (s : State) (r : ManageRecord) : (s.opened r).mgmt.sticky = s.mgmt.sticky := rfl
@[simp] theorem State.opened_reportRequest (s : State) (r : ManageRecord) : (s.opened r).mgmt.reportRequest = s.mgmt.reportRequest := rfl
@[simp] theorem State.opened_reportClaim (s : State) (r : ManageRecord) : (s.opened r).mgmt.reportClaim = s.mgmt.reportClaim := rfl
@[simp] theorem State.opened_statusClaim (s : State) (r : ManageRecord) : (s.opened r).mgmt.statusClaim = s.mgmt.statusClaim := rfl
@[simp] theorem State.opened_warmPending (s : State) (r : ManageRecord) : (s.opened r).mgmt.warmPending = s.mgmt.warmPending := rfl
@[simp] theorem State.opened_manage (s : State) (r : ManageRecord) : (s.opened r).mgmt.manage = some (s.frameFor r) := rfl

/-- A command left without an answer to note depends on nothing of the frame record. -/
theorem State.noted_manage (t : State) (m : Option ManageFrame) (f : ManageFrame) (r : ManageRecord) :
    ({ t with mgmt := { t.mgmt with manage := m } } : State).noted f r = t.noted f r := rfl

/-- Taking a record: the frame record after it and the frame's end are those of `noted`. -/
theorem State.noted_eq (t : State) (f : ManageFrame) (r : ManageRecord) (code : Byte) (e : CommandEffect) :
    (if f.endsWith r then t.closeFrame (f.after code r e)
      else { t with mgmt := { t.mgmt with manage := some (f.after code r e) } })
      = t.noted (f.extended code r e.code e.data) r := by
  have h : f.after code r e = f.extended code r e.code e.data := by
    simp [ManageFrame.after, ManageFrame.extended, recordBytes, beq_eq_decide]
  simp only [State.noted, h, ManageFrame.endsWith, ManageFrame.extended, Bool.or_eq_true, decide_eq_true_eq,
    State.closeFrame, Receiver.accepted, ManageFrame.payload, Config.manageCommands]
  congr

/-- An executed record runs its command in the open frame, and notes its result (R159, R160). -/
theorem State.manageRecord_executed {s : State} (h : s.executes = true) (code : Byte) (r : ManageRecord)
    (run : List Byte → State → CommandEffect) :
    s.manageRecord code r run
      = (run r.params (s.opened r)).state.noted
          ((s.frameFor r).extended code r (run r.params (s.opened r)).code (run r.params (s.opened r)).data) r := by
  have hs : s.openFrame r.tag = s.opened r := by
    cases hm : s.mgmt.manage with
    | some f => simp [State.openFrame, State.opened, State.frameFor, hm]; rw [← hm]
    | none =>
      simp [State.executes, hm] at h
      obtain ⟨-, hw, hq⟩ := h
      have : s.mgmt.overruns = false := by simp [Management.overruns, hw]; omega
      simp only [State.openFrame, hm, this, Flag.maskIf_false, State.raise_zero]
      simp [State.opened, State.frameFor, hm, Management.arriving, hw]
      omega
  have hf : (s.frameFor r).discarded = false ∧ (s.frameFor r).warmTaken = false := by
    cases hm : s.mgmt.manage with
    | some f => simp [State.executes, hm] at h; simp [State.frameFor, hm, h]
    | none => simp [State.frameFor, hm]
  simp only [State.manageRecord, hs]
  show (if (s.frameFor r).endsWith r then _ else _) = _
  rw [← State.noted_eq]
  simp only [State.runCommand, hf.1, hf.2]
  rfl

/-- A command refused, or answered without an effect, changes nothing but its frame (R159). -/
theorem State.answered_of_answer {s : State} (h : s.executes = true) {code : Byte} {r : ManageRecord}
    {run : List Byte → State → CommandEffect} {c : ResultCode} (e : run r.params (s.opened r) = (s.opened r).answer c) :
    s.manageRecord code r run = s.answered s code r c [] := by
  rw [State.manageRecord_executed h, e]
  exact State.noted_manage s _ _ r

/-- A command's effect `t`, up to the frame record, and its answer (R159, R160). -/
theorem State.answered_of_effect {s : State} (h : s.executes = true) {code : Byte} {r : ManageRecord}
    {run : List Byte → State → CommandEffect} {t : State} {c : ResultCode} {data : List Byte}
    (e : run r.params (s.opened r)
      = { state := { t with mgmt := { t.mgmt with manage := some (s.frameFor r) } }, code := c, data := data }) :
    s.manageRecord code r run = s.answered t code r c data := by
  rw [State.manageRecord_executed h, e]
  rfl

/-! ### The END of the queue's head (R161, R164) -/

/-- What UPSTREAM_FRAME_SENT can do: nothing on an empty queue; the warm reset, at the END of its REPLY; otherwise the head
leaves and waiting claims take the free slots. -/
theorem State.headSent_cases (s : State) :
    (s.mgmt.queue = [] ∧ s.headSent = s)
      ∨ (∃ f rest, s.mgmt.queue = f :: rest ∧ f.warmReply = true ∧ s.headSent = s.warmResetNow)
      ∨ ∃ f rest, s.mgmt.queue = f :: rest ∧ f.warmReply = false
          ∧ s.headSent = ({ s with mgmt := { s.mgmt with queue := rest } } : State).admitClaims := by
  cases hq : s.mgmt.queue with
  | nil => exact .inl ⟨rfl, by simp only [State.headSent, hq]⟩
  | cons f rest =>
    cases hw : f.warmReply
    · exact .inr (.inr ⟨f, rest, rfl, hw, by simp [State.headSent, hq, hw]⟩)
    · exact .inr (.inl ⟨f, rest, rfl, hw, by simp [State.headSent, hq, hw]⟩)

/-- Where the warm reset is due, the END of its REPLY and WARM_RESET_TAKES_EFFECT are one moment (R164). -/
theorem State.warmResetDue_eq_headSent {s : State} {f : UpFrame} {rest : List UpFrame} (hq : s.mgmt.queue = f :: rest)
    (hw : f.warmReply = true) : s.warmResetDue = s.warmResetNow ∧ s.headSent = s.warmResetNow := by
  simp [State.warmResetDue, State.headSent, hq, hw]

end Sys2Proof.Machine
end

