-- ==== Sys2Proof/Laws/Track.lean ====
section
/-! SUPPORT. The Track Table and the segment records entry by entry: reports in sequence (section 3.3), and a step of
records position by position (R81). -/

namespace Sys2Proof.Machine

open Sys2Proof

/-- Reports taken in two runs are taken in one (section 3.3, R51). -/
theorem takeReports_append (b : BankCopy) (now : MsTime) (t : TrackTable) (rs qs : List SceneReport) :
    takeReports b now t (rs ++ qs)
      = ((takeReports b now (takeReports b now t rs).1 qs).1,
         (takeReports b now t rs).2 ||| (takeReports b now (takeReports b now t rs).1 qs).2) := by
  induction rs generalizing t with
  | nil => simp [takeReports]
  | cons r rs ih =>
    simp only [List.cons_append, takeReports, ih]
    rw [BitVec.or_assoc]

/-- A report leaves everything of the table but the entries, the report count and the crowded hold counter. -/
theorem takeReport_frame (b : BankCopy) (now : MsTime) (t : TrackTable) (raw : SceneReport) :
    (takeReport b now t raw).1.isOpen = t.isOpen ∧ (takeReport b now t raw).1.sceneId = t.sceneId
      ∧ (takeReport b now t raw).1.lastScene = t.lastScene
      ∧ (takeReport b now t raw).1.reportCount = min 255 (t.reportCount + 1)
      ∧ (takeReport b now t raw).1.tracks.length = t.tracks.length := by
  simp only [takeReport]
  split
  · exact ⟨rfl, rfl, rfl, rfl, rfl⟩
  · simp only [applyReport]
    split
    · exact ⟨rfl, rfl, rfl, rfl, by simp⟩
    · exact ⟨rfl, rfl, rfl, rfl, by simp⟩
    · exact ⟨rfl, rfl, rfl, rfl, rfl⟩
    · exact ⟨rfl, rfl, rfl, rfl, rfl⟩

/-- The records of a side after a step, position by position (R81). -/
theorem stepRecords_get (b : BankCopy) (mode : BeamMode) (ss : List SegmentRecord) (ts : List Nat) (fs : List Bool)
    (n : Nat) :
    (stepRecords b mode ss ts fs)[n]?
      = match ss[n]?, ts[n]?, fs[n]? with
        | some s, some t, some f => some (s.step b mode t f)
        | _, _, _ => none := by
  induction ss generalizing ts fs n with
  | nil => simp [stepRecords]
  | cons s ss ih =>
    cases ts with
    | nil => simp [stepRecords]
    | cons t ts =>
      cases fs with
      | nil =>
        simp only [stepRecords, List.getElem?_nil]
        cases (s :: ss)[n]? <;> cases (t :: ts)[n]? <;> rfl
      | cons f fs =>
        cases n with
        | zero => rfl
        | succ n => simp [stepRecords, ih]

/-- The smallest of a value and the residuals of a list of windows (R13). -/
theorem le_foldl_residual (ws : List Window) (v m : Nat) :
    v ≤ ws.foldl (fun m w => min m w.residual) m ↔ v ≤ m ∧ ∀ w ∈ ws, v ≤ w.residual := by
  induction ws generalizing m with
  | nil => simp
  | cons w ws ih => simp [ih, and_assoc]

end Sys2Proof.Machine
end

