-- ==== Sys2Proof/Laws/Windows.lean ====
section
/-! SUPPORT. The sort and the sweep of the Window Builder (R73, R74): what each gives, said once. -/

namespace Sys2Proof.Machine

open Sys2Proof

/-! ### The sort (R73) -/

/-- The order of the sort, said of the edges (R73). -/
theorem before_iff (v w : Window) : before v w = true ↔ v.left < w.left ∨ (v.left = w.left ∧ v.right ≤ w.right) := by
  simp [before]

theorem placeWindow_perm (w : Window) (vs : List Window) : (placeWindow w vs).Perm (w :: vs) := by
  induction vs with
  | nil => exact .refl _
  | cons v vs ih =>
    simp only [placeWindow]
    split
    · exact .refl _
    · exact (ih.cons v).trans (.swap w v vs)

/-- The sort loses and repeats no candidate (R73). -/
theorem sortWindows_perm (ws : List Window) : (sortWindows ws).Perm ws := by
  induction ws with
  | nil => exact .refl _
  | cons w ws ih => exact (placeWindow_perm w _).trans (ih.cons w)

theorem placeWindow_sorted {w : Window} {vs : List Window}
    (h : vs.Pairwise (fun v w => before v w = true)) : (placeWindow w vs).Pairwise (fun v w => before v w = true) := by
  induction vs with
  | nil => simp [placeWindow]
  | cons v vs ih =>
    simp only [placeWindow]
    rw [List.pairwise_cons] at h
    split
    · rename_i hb
      refine List.pairwise_cons.2 ⟨fun x hx => ?_, List.pairwise_cons.2 h⟩
      rcases List.mem_cons.1 hx with rfl | hx
      · exact hb
      · have := h.1 x hx
        rw [before_iff] at hb this ⊢
        omega
    · rename_i hb
      refine List.pairwise_cons.2 ⟨fun x hx => ?_, ih h.2⟩
      rcases List.mem_cons.1 ((placeWindow_perm w vs).mem_iff.1 hx) with rfl | hx
      · rw [before_iff] at hb ⊢
        omega
      · exact h.1 x hx

/-- The sorted candidates stand in the order of their edges (R73). -/
theorem sortWindows_sorted (ws : List Window) : (sortWindows ws).Pairwise (fun v w => before v w = true) := by
  induction ws with
  | nil => exact .nil
  | cons w ws ih => exact placeWindow_sorted ih

theorem sublist_placeWindow (w : Window) (vs : List Window) : vs.Sublist (placeWindow w vs) := by
  induction vs with
  | nil => exact List.nil_sublist _
  | cons v vs ih =>
    simp only [placeWindow]
    split
    · exact List.sublist_cons_self _ _
    · exact ih.cons_cons v

/-- A candidate is placed before its equals (R73). -/
theorem placeWindow_before {v w : Window} {vs : List Window} (hw : w ∈ vs) (hl : v.left = w.left)
    (hr : v.right = w.right) : [v, w].Sublist (placeWindow v vs) := by
  induction vs with
  | nil => cases hw
  | cons x vs ih =>
    simp only [placeWindow]
    split
    · exact List.Sublist.cons_cons v (List.singleton_sublist.2 hw)
    · rename_i hb
      rcases List.mem_cons.1 hw with rfl | hw
      · exact absurd ((before_iff v w).2 (.inr ⟨hl, hr.le⟩)) hb
      · exact (ih hw).cons x

/-- Candidates with the same edges keep the order of their slots (R73). -/
theorem sortWindows_stable {v w : Window} {ws : List Window} (h : [v, w].Sublist ws) (hl : v.left = w.left)
    (hr : v.right = w.right) : [v, w].Sublist (sortWindows ws) := by
  induction ws with
  | nil => cases h
  | cons x ws ih =>
    cases h with
    | cons _ h => exact (ih h).trans (sublist_placeWindow x _)
    | cons_cons _ h =>
      exact placeWindow_before ((sortWindows_perm ws).mem_iff.2 (List.singleton_sublist.1 h)) hl hr

/-! ### The sweep (R74) -/

/-- One candidate of the sweep, with the windows so far, the current one first (R74). -/
def sweepStep (gap : Int) (ws : List Window) (w : Window) : List Window :=
  match ws with
  | [] => [w]
  | c :: done => if w.left - c.right < gap then mergeInto c w :: done else w :: c :: done

theorem sweepFrom_eq_foldl (gap : Int) (c : Window) (done ws : List Window) :
    done.reverse ++ sweepFrom gap c ws = (ws.foldl (sweepStep gap) (c :: done)).reverse := by
  induction ws generalizing c done with
  | nil => simp [sweepFrom]
  | cons w ws ih =>
    simp only [sweepFrom, List.foldl_cons, sweepStep]
    split
    · exact ih _ done
    · rw [← ih w (c :: done)]
      simp

/-- The sweep is a fold over the sorted candidates that keeps the current window first (R74). -/
theorem sweep_eq_foldl (gap : Int) (ws : List Window) : sweep gap ws = (ws.foldl (sweepStep gap) []).reverse := by
  cases ws with
  | nil => rfl
  | cons w ws => exact sweepFrom_eq_foldl gap w [] ws

end Sys2Proof.Machine
end

