-- ==== Sys2Proof/Tests/Slice0.lean ====
section
/-! SUPPORT. The model's own tests: the refusal of ill-formed commands, the encodings written out from the spec, its worked
cases one step at a time, and a witness for every statement with hypotheses. -/

namespace Sys2Proof.Tests

open Sys2Proof Sys2Proof.Machine

set_option maxRecDepth 20000

/-! ### Small states and commands -/

/-- The state a command leaves. -/
def after (s : State) (c : Instr) : State :=
  match exec c s with
  | .next t => t
  | _ => s

/-- A MANAGE record alone in its frame, with parameter bytes. -/
def rec1 (params : List Nat) : ManageRecord := { tag := 7#8, last := true, params := params.map (BitVec.ofNat 8) }

/-- The reset state with the link UP and the mode NORMAL. -/
def upState : State :=
  { State.reset with
    link := { State.reset.link with state := .up }
    sup := { State.reset.sup with mode := .normal }
    motion := { State.reset.motion with speed := 4, speedValid := true } }

/-- A SOLID test program. -/
def program : TestProgram :=
  { enabled := [.solid], storedIndex := 0, level := 800, scale := 1, invert := false, dwellFrames := 2, autoAdvance := true }

/-- The reset state in TEST. -/
def testState : State :=
  { upState with
    sup := { upState.sup with mode := .test, testActive := true, program := some program, current := some .solid } }

/-- The state with the link in a given state and the ms clock at a value. -/
def linkAt (l : LinkState) (m : BeamMode) (now : Nat) : State :=
  { State.reset with
    link := { State.reset.link with state := l }
    sup := { State.reset.sup with mode := m }
    time := { State.reset.time with msClock := BitVec.ofNat 32 now } }

/-- The state with a record for one side's port. -/
def withPort (s : State) (d : Side) (p : Port) : State := { s with ports := s.ports.set d p }

/-- The LEFT port of the reset state. -/
def port0 : Port := State.reset.ports.left

/-- An output frame of LEFT with a number. -/
def frame0 (number : Nat) : OutputFrame :=
  { side := .left, levels := List.replicate 128 5, number := BitVec.ofNat 16 number }

/-- The two items of a short transfer list. -/
def item1 : TransferItem := { chip := 1, address := 16, first := 0, count := 24, last := false }
def item2 : TransferItem := { chip := 2, address := 17, first := 24, count := 24, last := true }

/-- A port that sends a frame of two items, the first (`n` = 1) or the last (`n` = 2) of them on the bus. -/
def sending (n attempts : Nat) : Port :=
  { port0 with
    state := .sending, txn := .item (if n = 1 then item1 else item2) attempts 200
    inFlight := some { frame := frame0 1, items := [item1, item2], position := n } }

/-- A pass-through request. -/
def request : PassRequest := { chip := 1, write := false, register := 3, value := 0#16 }

/-- A port with a pass-through on the bus. -/
def passing (st : PortState) (attempts : Nat) : Port :=
  { port0 with state := st, txn := .pass 16 attempts 1000, pass := .inProgress request }

/-- An answer to a SEGMENT WRITE. -/
def segAck (address : Nat) (late : Bool) : SegmentAck :=
  { side := .left, late := late, address := address, thermalWarn := false, thermalStop := false, rxCrc := false,
    faults := 0#32 }

/-- A report record of an id, class and confidence. -/
def report (id cls conf : Nat) : SceneReport :=
  { objectId := BitVec.ofNat 8 id, classCode := BitVec.ofNat 8 cls, presence := 0#8, left := 0#16, right := 10#16,
    bottom := 0#16, top := 0#16, rate := 0#16, distance := 0#16, confidence := BitVec.ofNat 8 conf, captureAge := 0#8,
    spare := 0#8 }

/-- A SCENE payload. -/
def scene (id : Nat) (closes : Bool) (rs : List SceneReport) : ScenePayload :=
  { sceneId := BitVec.ofNat 8 id, control := BitVec.ofNat 8 ((if closes then 128 else 0) + rs.length), reports := rs }

/-- A track. -/
def track (id : Nat) (st : TrackState) : Track :=
  { Track.freeEntry with state := st, objectId := id, right := 10, confidence := 9, hits := 1 }

/-- A MOTION payload: speed, its validity alone in the flags, function LOW. -/
def motion (speed : Nat) (flags : Nat) : MotionPayload :=
  { speed := BitVec.ofNat 16 speed, yaw := 290#16, wheel := 60#16, flags := BitVec.ofNat 8 flags, function := 1#8,
    indices := 0x23#8 }

/-- A PATTERN payload. -/
def pattern (side n : Nat) : PatternPayload := { side := BitVec.ofNat 8 side, levels := List.replicate n 2000#16 }

/-! ### Ill-formed commands are refused, one for each check of WellFormed -/

theorem test_wf_good_frame_is_no_error :
    (Instr.linkFrameError (.failedCheck (DownFrame.bytes (.motion (motion 800 7))))).wf = false := by decide

theorem test_wf_too_many_bytes : (Instr.linkFrameError (.failedCheck (List.replicate 1029 0#8))).wf = false := by
  simp [Instr.wf]

theorem test_wf_scene_count : (Instr.sceneFrame { scene 1 true [report 9 0 9] with control := 0x82#8 }).wf = false := by
  decide

theorem test_wf_scene_thirteen : (Instr.sceneFrame (scene 1 true (List.replicate 13 (report 9 0 9)))).wf = false := by
  decide

theorem test_wf_pattern_side : (Instr.patternFrame (pattern 2 128)).wf = false := by decide

theorem test_wf_pattern_length : (Instr.patternFrame (pattern 1 127)).wf = false := by decide

theorem test_wf_long_parameters : ∀ c ∈
    [Instr.tableWrite, .tableRead, .commit, .discard, .statusNow, .flagClear, .sceneClear, .frameAlign, .testEnter,
     .testExit, .portHalt, .portStop, .portResume, .driverPass, .warmReset, .unknownCommand 0x10#8],
    (c (rec1 (List.replicate 256 0))).wf = false := by decide

theorem test_wf_known_code : (Instr.unknownCommand 0x0F#8 (rec1 [])).wf = false := by decide

theorem test_wf_chip_address : (Instr.segmentWriteAck (segAck 0 false)).wf = false
    ∧ (Instr.segmentWriteAck (segAck 128 false)).wf = false
    ∧ (Instr.registerAck { side := .left, late := false, address := 128, value := 0#16 }).wf = false := by decide

/-! ### Encodings written out from the spec (R125 to R129) -/

/-- The check value of the CRC that R125 describes, over the digits 1 to 9. -/
theorem test_crc_check_value : crc16 [0x31#8, 0x32#8, 0x33#8, 0x34#8, 0x35#8, 0x36#8, 0x37#8, 0x38#8, 0x39#8] = 0x29B1#16 := by
  decide

/-- A MOTION payload byte by byte: S 800, yaw −2, D 60, all valid, LOW, low index 2 and adaptive index 3 (R126). -/
theorem test_motion_bytes :
    parseMotion [0x03#8, 0x20#8, 0xFF#8, 0xFE#8, 0x00#8, 0x3C#8, 0x07#8, 0x01#8, 0x23#8]
      = some { speed := 800#16, yaw := 0xFFFE#16, wheel := 60#16, flags := 7#8, function := 1#8, indices := 0x23#8 } := by
  decide

/-- A SCENE payload with END and one report (R127). -/
theorem test_scene_bytes :
    parseScene [40#8, 0x81#8, 17#8, 0#8, 0x05#8, 0xFE#8, 0x5C#8, 0xFE#8, 0xCA#8, 0xFF#8, 0xEC#8, 0#8, 80#8, 0#8, 0#8,
        0x04#8, 0xB0#8, 9#8, 60#8, 0xAA#8]
      = some { sceneId := 40#8, control := 0x81#8, reports :=
          [{ objectId := 17#8, classCode := 0#8, presence := 5#8, left := BitVec.ofInt 16 (-420),
             right := BitVec.ofInt 16 (-310), bottom := BitVec.ofInt 16 (-20), top := 80#16, rate := 0#16,
             distance := 1200#16, confidence := 9#8, captureAge := 60#8, spare := 0xAA#8 }] } := by
  decide

/-- A MANAGE payload of two commands: FRAME ALIGN with count 4999 and COMMIT (R128). -/
theorem test_manage_commands :
    (parseManage [0x55#8, 2#8, 0x08#8, 2#8, 0x13#8, 0x87#8, 0x03#8, 0#8]).map (fun x => recordCommands x.1 x.2)
      = some [.frameAlign { tag := 0x55#8, last := false, params := [0x13#8, 0x87#8] },
              .commit { tag := 0x55#8, last := true, params := [] }] := by
  decide

/-- Every command code of R128 names its row, and the codes beside them name none. -/
theorem test_command_codes :
    ((List.range 18).map fun c => commandOf (BitVec.ofNat 8 c) (rec1 []))
      = [.unknownCommand 0#8 (rec1 []), .tableWrite (rec1 []), .tableRead (rec1 []), .commit (rec1 []), .discard (rec1 []),
         .statusNow (rec1 []), .flagClear (rec1 []), .sceneClear (rec1 []), .frameAlign (rec1 []), .testEnter (rec1 []),
         .testExit (rec1 []), .portHalt (rec1 []), .portStop (rec1 []), .portResume (rec1 []), .driverPass (rec1 []),
         .warmReset (rec1 []), .unknownCommand 16#8 (rec1 []), .unknownCommand 17#8 (rec1 [])] := by
  decide

/-- A PASS_RESULT of RIGHT alias 3 with the value 0x1234, and one that FAILED (R129). -/
theorem test_pass_result_bytes :
    passResultBytes .right 3 (some 0x1234#16) = [1#8, 3#8, 0#8, 0x12#8, 0x34#8]
      ∧ passResultBytes .left 2 none = [0#8, 2#8, 1#8, 0#8, 0#8] := by
  decide

/-! ### Worked cases of the spec, one step each -/

/-- Entering a right-hand curve, event F1 (chapter 2): from θL 320 and θR 440 to 328 and 448, shifts 42 and 57. -/
theorem test_bend_right_curve :
    ({ theta := { left := 320, right := 440 }, shift := .both 0, inputLost := true } : BendUnit).pass []
        { State.reset.motion with
          speed := 800, speedValid := true, yaw := 290, yawValid := true, wheel := 60, wheelValid := true }
      = { theta := { left := 328, right := 448 }, shift := { left := 42, right := 57 }, inputLost := false } := by decide

/-- A left-hand curve and its rounding (chapter 2): targets −363 and −254, shifts −46 and −33. -/
theorem test_bend_left_curve :
    (bendTargetOf []
        { State.reset.motion with
          speed := 900, speedValid := true, yaw := -210, yawValid := true, wheel := -45, wheelValid := true } .left,
      bendTargetOf []
        { State.reset.motion with
          speed := 900, speedValid := true, yaw := -210, yawValid := true, wheel := -45, wheelValid := true } .right,
      columnShift [] .left (-363), columnShift [] .right (-254)) = (-363, -254, -46, -33) := by decide

/-- One row shifted both ways (chapter 1). -/
theorem test_shift_row :
    (List.range 8).map (shiftedValue (fun k => [0, 100, 250, 500, 750, 1000, 1000, 900].getD k 0) 8 20)
        = [0, 0, 75, 213, 438, 688, 938, 1000]
      ∧ shiftedValue (fun k => [0, 100, 250, 500, 750, 1000, 1000, 900].getD k 0) 8 (-24) 0 = 175
      ∧ shiftedValue (fun k => [0, 100, 250, 500, 750, 1000, 1000, 900].getD k 0) 8 (-24) 7 = 900 := by decide

/-- One report, two lamps (chapter 4): the windows of LEFT and RIGHT, and LEFT's without a distance. -/
theorem test_window_of_report :
    let e : Track :=
      { Track.freeEntry with
        state := .confirmed, objectId := 17, cls := .oncoming, left := -420, right := -310, bottom := -20, top := some 80
        rate := some (-150), distance := some 1200, captureAge := 60, arrival := 4988#32 }
    let window : Int → Int → Int → Int → List Window := fun l r b t =>
      [{ left := l, right := r, bottom := b, top := t, residual := 0, cls := .oncoming }]
    buildWindows [] 5000#32 .left [e] = window (-425) (-235) 12 172
      ∧ buildWindows [] 5000#32 .right [e] = window (-521) (-331) 12 172
      ∧ buildWindows [] 5000#32 .left [{ e with distance := none }] = window (-533) (-223) (-110) 170 := by decide

/-- Merging on one side (chapter 4), and the segments of rows 1 and 2 that window 1 covers. -/
theorem test_windows_merge :
    sweep 100 (sortWindows
        [{ left := 180, right := 320, bottom := 20, top := 150, residual := 0, cls := .oncoming },
         { left := -200, right := -60, bottom := -10, top := 90, residual := 0, cls := .preceding },
         { left := 10, right := 50, bottom := -40, top := 0, residual := 300, cls := .reflector }])
      = [{ left := -200, right := 50, bottom := -40, top := 90, residual := 0, cls := .preceding },
         { left := 180, right := 320, bottom := 20, top := 150, residual := 0, cls := .oncoming }]
      ∧ (List.range 72).filter (fun n => covers [] .left
          { left := -200, right := 50, bottom := -40, top := 90, residual := 0, cls := .preceding } (n / 24) (n % 24))
        = [34, 35, 36, 58, 59, 60] := by decide

/-- A shadow that comes and goes (chapter 5): the records after F1, F2 and F14. -/
theorem test_shadow_release :
    SegmentRecord.step [] .normal 0 true { level := 888, hold := 0, lastFlag := false }
        = { level := 0, hold := 0, lastFlag := true }
      ∧ SegmentRecord.step [] .normal 888 false { level := 0, hold := 0, lastFlag := true }
        = { level := 0, hold := 11, lastFlag := false }
      ∧ SegmentRecord.step [] .normal 888 false { level := 0, hold := 0, lastFlag := false }
        = { level := 24, hold := 0, lastFlag := false } := by decide

/-- Settling (chapter 8): the out-of-band arrival at 1067 clamps E to 24 and clears the stable count. -/
theorem test_motion_out_of_band :
    LinkMonitor.arrival [] 1067#32
        { state := .settling, estimate := 20, stable := 2, lastArrival := 1040#32, lapseTaken := false, lossTaken := false }
      = { state := .settling, estimate := 24, stable := 0, lastArrival := 1067#32, lapseTaken := false,
          lossTaken := false } := by decide

/-- Settling (chapter 8): the fourth interval in band, at 1148, makes the link UP and the mode NORMAL. -/
theorem test_motion_up :
    let s := { linkAt .settling .dark 1148 with
               link := { State.reset.link with state := .settling, stable := 3, lastArrival := 1128#32 } }
    (after s (.motionFrame (motion 800 7))).link.state = .up ∧ (after s (.motionFrame (motion 800 7))).sup.mode = .normal := by
  decide

/-- Lapse (chapter 8): a gap of 60 is no lapse, a gap of 61 is. -/
theorem test_lapse_at_61 :
    (after (linkAt .up .normal 60) .lapseExpiry).link.state = .up
      ∧ (after (linkAt .up .normal 61) .lapseExpiry).link.state = .lapsed
      ∧ (after (linkAt .up .normal 61) .lapseExpiry).sup.mode = .hold
      ∧ (after (linkAt .up .normal 61) .lapseExpiry).flag .linkLapsed = true := by decide

/-- Loss (chapter 8): a gap of 501 in LAPSED takes the link DOWN and the mode to DARK. -/
theorem test_loss_at_501 :
    (after (linkAt .lapsed .hold 500) .lossExpiry).link.state = .lapsed
      ∧ (after (linkAt .lapsed .hold 501) .lossExpiry).link.state = .down
      ∧ (after (linkAt .lapsed .hold 501) .lossExpiry).sup.mode = .dark := by decide

/-- An oncoming car, frame A (chapter 3): one track created, one report ignored, one discarded with FRAME_ERROR. -/
theorem test_scene_frame_a :
    let t := after State.reset (.sceneFrame (scene 40 false [report 17 0 9, report 23 3 4, report 0 0 5]))
    t.table.reportCount = 3 ∧ t.table.isOpen = true ∧ t.flag .frameError = true
      ∧ t.table.countIn .tentative = 1 ∧ (t.table.tracks[0]?).map Track.objectId = some 17 := by decide

/-- A full table (chapter 3): id 80 takes the slot of the COASTING entry, slot 6. -/
theorem test_full_table_evicts :
    slotForNew ((List.range 24).map fun i =>
        if i = 6 then { track 44 .coasting with misses := 1 } else if i = 19 then track 52 .tentative
        else track (100 + i) .confirmed) = some 6
      ∧ slotForNew ((List.range 24).map fun i => if i = 19 then track 52 .tentative else track (100 + i) .confirmed)
        = some 19
      ∧ slotForNew ((List.range 24).map fun i => track (100 + i) .confirmed) = none := by decide

/-- Aligning the frames (chapter 9): count 4999 expires at the 5000th tick; count 0, 700 µs after an event, is held to
2000 µs. -/
theorem test_frame_align :
    (after upState (.frameAlign (rec1 [0x13, 0x87]))).time.count = 4999
      ∧ ({ State.reset.time with count := 4999, sinceEvent := 3000 } : Timebase).ticksToExpiry = 5000
      ∧ ({ State.reset.time with count := 0, sinceEvent := 700 } : Timebase).ticksToExpiry = 1300 := by decide

/-- A sync source that returns (chapter 9): an edge 1200 µs after the last event is early. -/
theorem test_early_edge :
    let s := { State.reset with
               bank := { State.reset.bank with active := bankWrite [] 1 1 1#16 }
               time := { State.reset.time with sinceEvent := 1200, flywheel := 8, syncLost := true } }
    (after s (.fsyncEdge .rising)).flag .syncEarly = true ∧ (after s (.fsyncEdge .rising)).time.flywheel = 8
      ∧ (after s (.fsyncEdge .rising)).time.frameCounter = 0#16
      ∧ (after s (.fsyncEdge .falling)).flag .syncEarly = false := by decide

/-- The eighth flywheel event makes SYNC_LOST hold, the seventh does not (R142). -/
theorem test_flywheel_eighth :
    (Timebase.frame [] .flywheel { State.reset.time with flywheel := 6 }).syncLost = false
      ∧ (Timebase.frame [] .flywheel { State.reset.time with flywheel := 7 }).syncLost = true := by decide

/-- A driver chip that stops answering (chapter 6): the fourth skipped item in a row makes it UNREACHABLE with
DRIVER_LOST, and the port goes on with the next item. -/
theorem test_driver_lost :
    let p := { sending 1 4 with chips := port0.chips.modify 0 fun r => { r with failed := 3 } }
    let t := after (withPort upState .left p) (.replyTimeout .left)
    (t.ports.left.chips[0]?).map ChipRecord.state = some .unreachable ∧ t.flag (.driverLost .left) = true
      ∧ t.ports.left.txn = .item item2 1 200 := by decide

/-- An UNREACHABLE alias is left out of a frame's list unless the number is a multiple of 16 (R97). -/
theorem test_probe_frames :
    let chips := port0.chips.modify 1 fun r => { r with state := .unreachable }
    (transferList [] .left chips 1007#16).map TransferItem.chip = [1, 3]
      ∧ (transferList [] .left chips 1008#16).map TransferItem.chip = [1, 2, 3]
      ∧ (transferList [] .left chips 1008#16).map TransferItem.last = [false, false, true] := by decide

/-- PORT STOP in TEST keeps the items not begun as the remainder, and PORT RESUME of a HALTED port gives IDLE (R105, R106). -/
theorem test_port_stop :
    let s := withPort testState .left (sending 1 1)
    (after s (.portStop (rec1 [0]))).ports.left.state = .stopped
      ∧ (after s (.portStop (rec1 [0]))).ports.left.remainder = [item2]
      ∧ (after (withPort testState .left { port0 with state := .halted }) (.portResume (rec1 [0]))).ports.left.state
          = .idle := by decide

/-- PORT STOP with a pass-through on the bus leaves an empty remainder, the unsent item of a resumed frame dropped, and PORT
RESUME then goes on in SENDING (R105, R106). -/
theorem test_port_stop_in_pass :
    let p := { passing .sending 1 with inFlight := (sending 1 1).inFlight, remainder := [item2] }
    let t := after (withPort testState .left p) (.portStop (rec1 [0]))
    t.ports.left.state = .stopped ∧ t.ports.left.remainder = [] ∧ t.ports.left.inFlight = none
      ∧ t.ports.left.txn = p.txn ∧ (after t (.portResume (rec1 [0]))).ports.left.state = .sending := by decide

/-- An ACK to the last item completes the frame, and the port is IDLE (R99). -/
theorem test_last_item_answered :
    let t := after (withPort upState .left (sending 2 1)) (.segmentWriteAck (segAck 17 false))
    t.ports.left.state = .idle ∧ t.ports.left.inFlight = none ∧ t.ports.left.txn = .quiet := by decide

/-- At the last item a WAITING pass-through goes before the pending frame, which stays (R99 step 2); a HALTING port in TEST
becomes HALTED and its pending frame is discarded (step 3). -/
theorem test_port_goes_on :
    (let q := (after (withPort upState .left
        { sending 2 1 with pass := .waiting request, pendingFrame := some (frame0 2) }) (.segmentWriteAck (segAck 17 false))).ports.left
     q.state = .sending ∧ q.txn = .pass 16 1 1000 ∧ q.pendingFrame = some (frame0 2) ∧ q.inFlight = none)
      ∧ (let q := (after (withPort testState .left
            { sending 2 1 with state := .halting, pendingFrame := some (frame0 2) }) (.segmentWriteAck (segAck 17 false))).ports.left
         q.state = .halted ∧ q.pendingFrame = none) := by decide

/-- A WAITING pass-through whose alias a commit has taken out of the map has FAILED at once (R102): its PASS_RESULT enters
and the pending frame starts. -/
theorem test_removed_alias_fails :
    let s := withPort { upState with bank := { upState.bank with active := bankWrite [] 7 1 0#16 } } .left
      { sending 2 1 with pass := .waiting request, pendingFrame := some (frame0 2) }
    let t := after s (.segmentWriteAck (segAck 17 false))
    t.mgmt.queue = [.passResult .left 1 none] ∧ t.ports.left.pass = .empty
      ∧ (t.ports.left.inFlight.map fun f => f.frame.number) = some 2#16 := by decide

/-- A pass-through result enters a free slot at once (R103). -/
theorem test_pass_result_enters :
    let s := withPort upState .left (passing .sending 1)
    (after s (.registerAck { side := .left, late := false, address := 16, value := 77#16 })).mgmt.queue
      = [.passResult .left 1 (some 77#16)] := by decide

/-- TEST ENTER in NORMAL below the speed limit; at the limit it answers MOVING (R116). -/
theorem test_test_enter :
    let r := rec1 [1, 0, 0x03, 0x20, 1, 0, 0, 2, 1]
    (after upState (.testEnter r)).sup.mode = .test
      ∧ (after { upState with motion := { upState.motion with speed := 5 } } (.testEnter r)).mgmt.queue
          = [.reply 7#8 [{ command := 9#8, code := .moving, data := [] }]] := by decide

/-- A MANAGE frame that finds the queue full is discarded with MANAGE_OVERRUN (R158). -/
theorem test_manage_overrun :
    let s := { upState with mgmt := { upState.mgmt with queue := List.replicate 4 (.reply 1#8 []) } }
    (after s (.commit (rec1 []))).flag .manageOverrun = true
      ∧ (after s (.commit (rec1 []))).bank.commitPending = false
      ∧ (after s (.commit (rec1 []))).mgmt.queue.length = 4 := by decide

/-- A command that follows WARM RESET in its frame is answered NOT_RUN (R159). -/
theorem test_not_run_after_warm_reset :
    let s := after State.reset (.warmReset { rec1 [] with last := false })
    (after s (.commit (rec1 []))).mgmt.queue
      = [.reply 7#8 [{ command := 0x0F#8, code := .ok, data := [] }, { command := 3#8, code := .notRun, data := [] }]]
      ∧ (after s (.commit (rec1 []))).bank.commitPending = false := by decide

/-- At the END of its REPLY, and not before, the warm reset takes effect, and what stands behind the REPLY is dropped (R164). -/
theorem test_warm_reset_after_reply :
    let s0 := { after upState (.warmReset (rec1 [])) with bank := { State.reset.bank with commitCount := 3#16 } }
    let s := { s0 with mgmt := { s0.mgmt with queue := s0.mgmt.queue ++ [.passResult .left 1 none] } }
    let early := { s with mgmt := { s.mgmt with queue := .passResult .right 1 none :: s.mgmt.queue } }
    (after early .upstreamFrameSent).mgmt.queue = s.mgmt.queue ∧ (after early .warmResetTakesEffect).sup.mode = .normal
      ∧ (∀ c ∈ [Instr.upstreamFrameSent, .warmResetTakesEffect],
          (after s c).sup.mode = .dark ∧ (after s c).link.state = .down ∧ (after s c).mgmt.queue = []
            ∧ (after s c).mgmt.warmPending = false ∧ (after s c).bank.commitCount = 3#16) := by decide

/-- TABLE WRITE goes to STAGED alone, and TABLE READ returns it (R148). -/
theorem test_table_write_read :
    let s := after State.reset (.tableWrite (rec1 [8, 0, 5, 1, 0x01, 0x2C]))
    bankRead s.bank.staged 8 5 = 300#16 ∧ bankRead s.bank.active 8 5 = 0#16
      ∧ (after { s with mgmt := State.reset.mgmt } (.tableRead (rec1 [8, 1, 0, 5, 1]))).mgmt.queue
          = [.reply 7#8 [{ command := 2#8, code := .ok, data := [0x01#8, 0x2C#8] }]] := by decide

/-- The first failing word by table id, then offset: nominal 4 before preload 0 (R154). -/
theorem test_first_failing_word :
    wordOk (bankWrite (bankWrite [] 1 0 0#16) 0 0 4#16) 0 0 = false
      ∧ wordOk (bankWrite [] 1 0 0#16) 1 0 = false ∧ wordOk [] 1 0 = true := by decide

/-- The light goes out of the mode table: LOWREQ active and the link DOWN give FALLBACK (R111, R113). -/
theorem test_lowreq_fallback :
    (after (after State.reset (.lowreqEdge true)) .lowreqLevelChange).sup.mode = .fallback
      ∧ (after (after State.reset (.lowreqEdge true)) .lowreqLevelChange).time.sinceEvent = 2000
      ∧ (after (after State.reset (.lowreqEdge true)) (.lowreqEdge false)).sup.lowreqHeld = none := by decide

/-! ### Witnesses: each statement's hypotheses are met, together, by a concrete state and operands -/

theorem witness_StepRunsFrontCommand :
    ({ State.reset with pending := [.startSymbol, .coldReset] } : State).pending = .startSymbol :: [.coldReset] := rfl

theorem witness_EmptyQueueLetsTimePass :
    (State.reset.pending = [] ∧ State.reset.inReset = false ∧ State.reset.dueEvent = none)
      ∧ (State.reset.coldReset.pending = [] ∧ State.reset.coldReset.inReset = true)
      ∧ (let s := { State.reset with time := { State.reset.time with msTicks := 1000 } }
         s.pending = [] ∧ s.inReset = false ∧ s.dueEvent = some .msClockTick) := by decide

theorem witness_ColdResetAndItsEnd :
    State.reset.inReset = false ∧ State.reset.coldReset.inReset = true ∧ State.reset.sup.lowreqLine = false
      ∧ exec .coldReset State.reset = .next State.reset.coldReset ∧ Instr.startSymbol ≠ .coldReset
      ∧ Instr.startSymbol ≠ .resetEnds ∧ ∀ active, Instr.startSymbol ≠ .lowreqEdge active :=
  ⟨rfl, rfl, rfl, rfl, by decide, by decide, by decide⟩

/-- A queue with a WARM RESET REPLY at its head. -/
def warmQueue : State :=
  { upState with
    mgmt := { upState.mgmt with
      warmPending := true, queue := [.reply 7#8 [{ command := 0x0F#8, code := .ok, data := [] }], .reply 8#8 []] } }

theorem witness_WarmResetKeepsTables :
    (State.reset.inReset = false ∧ State.reset.mgmt.queue.head? = none)
      ∧ (UpFrame.reply 8#8 []).warmReply = false
      ∧ warmQueue.inReset = false
      ∧ warmQueue.mgmt.queue = .reply 7#8 [{ command := 0x0F#8, code := .ok, data := [] }] :: [.reply 8#8 []]
      ∧ (UpFrame.reply 7#8 [{ command := 0x0F#8, code := .ok, data := [] }]).warmReply = true := by decide

theorem witness_LowreqLevelDecidesFallback :
    (State.reset.inReset = false ∧ State.reset.sup.lowreqHeld = none)
      ∧ (∀ s ∈ [State.reset, linkAt .settling .dark 0, upState, testState, linkAt .lapsed .hold 0], ∀ h ∈ [0, 2000],
          let t := { s with sup := { s.sup with lowreqLine := true, lowreqHeld := some h } }
          t.inReset = false ∧ t.modeLaw = true ∧ t.sup.lowreqHeld = some h) := by decide

theorem witness_ReceiverDiscardsFrames :
    (State.reset.inReset = false ∧ State.reset.rx.assembling = false)
      ∧ (after State.reset .startSymbol).inReset = false ∧ (after State.reset .startSymbol).rx.assembling = true
      ∧ (∀ data, FrameFault.overflow = .failedCheck data → receive data = none)
      ∧ (∀ data, FrameFault.failedCheck [] = .failedCheck data → receive data = none)
      ∧ (DownFrame.motion (motion 800 7)).framed = true :=
  ⟨by decide, by decide, by decide, fun _ h => (by cases h), fun _ h => (by cases h; decide), by decide⟩

theorem witness_MotionReplacesRecord : ∀ s ∈ [State.reset, upState, testState, linkAt .lapsed .hold 0],
    s.inReset = false ∧ s.modeLaw = true := by decide

/-- DOWN; SETTLING with the interval at the edge of the band, 16 and 24, and just outside it; UP; LAPSED. -/
theorem witness_MotionArrivalAtMonitor :
    (State.reset.inReset = false ∧ State.reset.link.state = .down)
      ∧ (∀ now ∈ [15, 16, 24, 25], (linkAt .settling .dark now).inReset = false
          ∧ (linkAt .settling .dark now).link.state ≠ .down ∧ (linkAt .settling .dark now).link.state = .settling)
      ∧ (∀ s ∈ [upState, linkAt .lapsed .hold 61], s.inReset = false ∧ s.link.state ≠ .down ∧ s.link.state ≠ .settling) := by
  decide

/-- A test that goes on at speed 4 and one that ends at the limit 5, and a mode other than TEST. -/
theorem witness_MotionArrivalDecidesMode :
    (∀ s ∈ [State.reset, upState, testState], s.inReset = false ∧ s.modeLaw = true)
      ∧ testState.sup.mode = .test ∧ (motion 5 1).flags.getLsbD 0 = true
      ∧ natField testState.bank.active 8 7 ≤ min 2000 (motion 5 1).speed.toNat
      ∧ ¬ natField testState.bank.active 8 7 ≤ min 2000 (motion 4 1).speed.toNat := by decide

theorem witness_GapExpiries :
    (State.reset.inReset = false ∧ lapseDue State.reset.bank.active State.reset.time.msClock State.reset.link = false
        ∧ lossDue State.reset.bank.active State.reset.time.msClock State.reset.link = false)
      ∧ (let s := linkAt .settling .dark 61
         s.inReset = false ∧ s.link.state = .settling ∧ s.link.lapseTaken = false
           ∧ s.link.estimate * natField s.bank.active 0 4 < (s.time.msClock - s.link.lastArrival).toNat)
      ∧ (∀ s ∈ [linkAt .up .normal 61, { testState with time := { testState.time with msClock := 61#32 } }],
          s.inReset = false ∧ s.modeLaw = true ∧ s.link.state = .up ∧ s.link.lapseTaken = false
            ∧ s.link.estimate * natField s.bank.active 0 4 < (s.time.msClock - s.link.lastArrival).toNat)
      ∧ (∀ s ∈ [linkAt .settling .dark 501, linkAt .lapsed .hold 501],
          s.inReset = false ∧ s.modeLaw = true ∧ (s.link.state = .settling ∨ s.link.state = .lapsed)
            ∧ s.link.lossTaken = false
            ∧ natField s.bank.active 0 5 < (s.time.msClock - s.link.lastArrival).toNat) := by decide

theorem witness_SquelchTakesLinkDown :
    ∀ s ∈ [State.reset, linkAt .settling .dark 0, upState, testState, linkAt .lapsed .hold 0],
      s.inReset = false ∧ s.modeLaw = true := by decide

theorem witness_SceneFrameOpensAndCloses :
    (State.reset.inReset = false ∧ State.reset.table.reportCount ≤ 255
        ∧ (scene 40 true (List.replicate 12 (report 9 0 9))).framed = true)
      ∧ (scene 40 true (List.replicate 13 (report 9 0 9))).framed = false := by decide

theorem witness_SceneSplitsIntoFrames :
    ∃ (p q r : ScenePayload) (s t u v : State), s.inReset = false ∧ p.framed = true ∧ q.framed = true ∧ r.framed = true
      ∧ p.sceneId = q.sceneId ∧ r.sceneId = p.sceneId ∧ p.control.getLsbD 7 = false
      ∧ r.control.getLsbD 7 = q.control.getLsbD 7 ∧ r.reports = p.reports ++ q.reports
      ∧ exec (.sceneFrame p) s = .next t ∧ exec (.sceneFrame q) t = .next u ∧ exec (.sceneFrame r) s = .next v :=
  ⟨scene 40 false [report 17 0 9], scene 40 true [report 23 3 9], scene 40 true [report 17 0 9, report 23 3 9],
    State.reset, _, _, _, by decide, by decide, by decide, by decide, rfl, rfl, by decide, by decide, rfl, rfl, rfl, rfl⟩

/-- An open scene whose tracks stand in every state, seen and not seen. -/
def openScene : State :=
  { State.reset with
    table := { TrackTable.empty with
      isOpen := true, sceneId := 40
      tracks := [Track.freeEntry, track 1 .tentative, track 2 .confirmed, track 3 .coasting,
        { track 4 .tentative with seen := true }, { track 5 .confirmed with seen := true },
        { track 6 .coasting with seen := true }] } }

theorem witness_SceneCloseCountsMisses :
    openScene.inReset = false ∧ openScene.table.isOpen = true ∧ openScene.table.sceneId = (scene 40 true []).sceneId.toNat
      ∧ (scene 40 true []).framed = true ∧ (scene 40 true []).reports = [] ∧ (scene 40 true []).control.getLsbD 7 = true
      ∧ openScene.table.tracks.map (fun e => (e.state, e.seen))
          = [(.free, false), (.tentative, false), (.confirmed, false), (.coasting, false), (.tentative, true),
             (.confirmed, true), (.coasting, true)] := by decide

/-- A checked report of an id at the create confidence 6, and one below it. -/
def checked (id conf : Nat) : Report :=
  { objectId := id, cls := .oncoming, left := 0, right := 10, bottom := 0, top := none, rate := none, distance := none,
    confidence := conf, captureAge := 0 }

/-- A frame that continues the open scene 40 with one record: a good one, and one that fails its check. -/
theorem witness_ReportCases_inFrame :
    openScene.inReset = false ∧ openScene.table.isOpen = true
      ∧ (∀ id ∈ [17, 0], openScene.table.sceneId = (scene 40 false [report id 0 9]).sceneId.toNat
          ∧ (scene 40 false [report id 0 9]).framed = true ∧ (scene 40 false [report id 0 9]).reports = [report id 0 9]
          ∧ (scene 40 false [report id 0 9]).control.getLsbD 7 = false)
      ∧ (reportOf (report 17 0 9)).isSome = true ∧ reportOf (report 0 0 9) = none := by decide

theorem witness_ReportCases :
    (let ts := [Track.freeEntry, track 9 .tentative]
     (trackIds ts).Nodup ∧ ts[1]? = some (track 9 .tentative) ∧ (track 9 .tentative).state ≠ .free
       ∧ (track 9 .tentative).objectId = (checked 9 0).objectId)
      ∧ (let ts := [track 9 .tentative]
         (checked 8 5).objectId ∉ trackIds ts ∧ (checked 8 5).confidence < natField [] 5 (12 * (checked 8 5).cls.code))
      ∧ (let ts := [track 9 .tentative, Track.freeEntry]
         (checked 8 6).objectId ∉ trackIds ts ∧ natField [] 5 (12 * (checked 8 6).cls.code) ≤ (checked 8 6).confidence
           ∧ ts[1]? = some Track.freeEntry ∧ Track.freeEntry.state = .free ∧ (ts[0]?).map Track.state ≠ some .free)
      ∧ (let ts := [track 7 .confirmed, track 9 .coasting]
         (checked 8 6).objectId ∉ trackIds ts ∧ (∀ e ∈ ts, e.state ≠ .free) ∧ ts[1]? = some (track 9 .coasting)
           ∧ (track 9 .coasting).state = .coasting ∧ ∀ e ∈ [track 7 .confirmed], e.state ≠ .coasting)
      ∧ (let ts := [track 7 .confirmed, track 9 .tentative]
         (checked 8 6).objectId ∉ trackIds ts ∧ (∀ e ∈ ts, e.state ≠ .free) ∧ (∀ f ∈ ts, f.state ≠ .coasting)
           ∧ (∀ f ∈ ts, f.confidence ≤ 15) ∧ ts[1]? = some (track 9 .tentative))
      ∧ (let ts := [track 7 .confirmed, track 9 .confirmed]
         (checked 8 6).objectId ∉ trackIds ts ∧ (∀ e ∈ ts, e.state ≠ .free) ∧ ∀ e ∈ ts, e.state = .confirmed) := by
  decide

theorem witness_PatternReplacesBuffer :
    State.reset.inReset = false ∧ (pattern 0 128).side.toNat = sideCode .left ∧ (pattern 1 128).side.toNat = sideCode .right
      ∧ (pattern 1 128).levels.length = 128 ∧ 1 < (pattern 2 128).side.toNat ∧ (pattern 1 127).levels.length ≠ 128 := by
  decide

/-- A TABLE WRITE that ends at the last word of SUPERVISION, one word beyond it, no words, and no such table. -/
theorem witness_TableWriteAndRead :
    State.reset.executes = true ∧ bankWf State.reset.bank.staged = true
      ∧ (rec1 [8, 0, 23, 1, 0, 5]).params = 8#8 :: 0#8 :: 23#8 :: 1#8 :: wordsBytes [5#16] ∧ tableSize 8 ≠ 0
      ∧ (0#8 ++ 23#8).toNat + 1 ≤ tableSize 8 ∧ tableSize 8 < (0#8 ++ 24#8).toNat + 1 ∧ tableSize 9 = 0
      ∧ (rec1 [8, 0, 24, 1, 0, 5]).params = 8#8 :: 0#8 :: 24#8 :: 1#8 :: wordsBytes [5#16]
      ∧ (rec1 [9, 0, 0, 0]).params = 9#8 :: 0#8 :: 0#8 :: 0#8 :: wordsBytes []
      ∧ (rec1 [8, 1, 0, 23, 1]).params = [8#8, 1#8, 0#8, 23#8, 1#8]
      ∧ (rec1 [8, 2, 0, 23, 1]).params = [8#8, 2#8, 0#8, 23#8, 1#8]
      ∧ (rec1 [9, 0, 0, 23, 1]).params = [9#8, 0#8, 0#8, 23#8, 1#8] := by decide

theorem witness_CommitAndDiscard : State.reset.executes = true ∧ (rec1 []).params = [] := by decide

theorem witness_FlagSceneAndWarmCommands :
    State.reset.executes = true ∧ (rec1 [0xFF, 1]).params = [0xFF#8, 1#8] ∧ (rec1 []).params = [] := by decide

theorem witness_BadLengthAndUnknownCode :
    State.reset.executes = true ∧ ∀ c ∈ List.range' 1 15, 1 ≤ (BitVec.ofNat 8 c).toNat ∧ (BitVec.ofNat 8 c).toNat ≤ 15
      ∧ lengthFits (BitVec.ofNat 8 c).toNat (rec1 [1, 2, 3]).params = false := by decide

theorem witness_UnexecutedRecords :
    (let s := { State.reset with mgmt := { State.reset.mgmt with queue := List.replicate 4 (.reply 1#8 []) } }
     s.inReset = false ∧ s.mgmt.manage = none ∧ 4 ≤ s.mgmt.queue.length)
      ∧ (let s := { State.reset with mgmt := { State.reset.mgmt with warmPending := true } }
         s.inReset = false ∧ s.mgmt.manage = none ∧ s.mgmt.warmPending = true)
      ∧ (let s := after State.reset (.warmReset { rec1 [] with last := false })
         s.inReset = false ∧ (s.mgmt.manage.map ManageFrame.warmTaken) = some true)
      ∧ (let s := after { State.reset with mgmt := { State.reset.mgmt with warmPending := true } }
                    (.commit { rec1 [] with last := false })
         s.inReset = false ∧ (s.mgmt.manage.map ManageFrame.discarded) = some true) := by decide

theorem witness_FrameAlignLoadsTimer :
    State.reset.executes = true ∧ (rec1 [0x27, 0x0F]).params = [0x27#8, 0x0F#8]
      ∧ natField State.reset.bank.active 1 1 = 0 ∧ (0x27#8 ++ 0x0F#8).toNat ≤ natField State.reset.bank.active 1 0
      ∧ natField State.reset.bank.active 1 0 < (0x27#8 ++ 0x10#8).toNat
      ∧ (let s := { State.reset with bank := { State.reset.bank with active := bankWrite [] 1 1 1#16 } }
         s.executes = true ∧ natField s.bank.active 1 1 ≠ 0) := by decide

theorem witness_TestEnterAndExit :
    (∀ s ∈ [State.reset, upState, testState, { upState with motion := { upState.motion with speed := 5 } }],
        s.executes = true ∧ s.modeLaw = true)
      ∧ programArgs (rec1 [1, 0, 0x03, 0x20, 1, 0, 0, 2, 1]).params = some program ∧ program.wellFormed = true
      ∧ ((programArgs (rec1 [0, 0, 0x03, 0x20, 1, 0, 0, 2, 1]).params).map TestProgram.wellFormed) = some false
      ∧ State.reset.sup.mode ≠ .normal ∧ upState.sup.mode = .normal ∧ upState.motion.speedValid = true
      ∧ ¬ natField upState.bank.active 8 7 ≤ upState.motion.speed ∧ natField upState.bank.active 8 7 ≤ 5
      ∧ (rec1 []).params = [] ∧ testState.sup.mode = .test := by decide

theorem witness_PortControlInTest :
    State.reset.executes = true ∧ testState.executes = true ∧ State.reset.sup.mode ≠ .test ∧ testState.sup.mode = .test
      ∧ (rec1 [2]).params = [2#8] ∧ (1#8).toNat = sideCode .right ∧ (0#8).toNat = sideCode .left
      ∧ (let p := { sending 1 1 with state := .stopped, txn := .quiet, remainder := [item2] }
         (withPort testState .left p).executes = true ∧ (withPort testState .left p).sup.mode = .test
           ∧ p.state = .stopped ∧ p.txn = .quiet ∧ p.inFlight.isSome = true
           ∧ (p.inFlight.bind fun f => f.items[f.position]?) = some item2)
      ∧ (let p := { port0 with state := .stopped }
         (withPort testState .left p).executes = true ∧ p.state = .stopped ∧ p.txn = .quiet ∧ p.inFlight = none)
      ∧ (let p := passing .halted 1
         (withPort testState .left p).executes = true ∧ p.state = .halted ∧ p.txn ≠ .quiet)
      ∧ (let p := { passing .sending 1 with inFlight := (sending 1 1).inFlight }
         (withPort testState .left p).executes = true ∧ p.state = .sending ∧ p.txn = .pass 16 1 1000
           ∧ p.inFlight.isSome = true) := by decide

theorem witness_DriverPassTakesSlot :
    State.reset.executes = true ∧ (rec1 [0, 1, 0, 3, 0, 0]).params = [0#8, 1#8, 0#8, 3#8, 0#8, 0#8]
      ∧ (rec1 [0, 4, 1, 3, 0, 0]).params = [0#8, 4#8, 1#8, 3#8, 0#8, 0#8] ∧ (0#8).toNat = sideCode .left
      ∧ 1 < (2#8).toNat ∧ 4 < (5#8).toNat ∧ (chipEntry State.reset.bank.active .left 1).isSome = true
      ∧ chipEntry State.reset.bank.active .left 4 = none ∧ State.reset.ports.left.pass = .empty
      ∧ State.reset.ports.left.state = .idle ∧ State.reset.ports.left.txn = .quiet
      ∧ (withPort State.reset .left (passing .idle 1)).executes = true ∧ (passing .idle 1).pass ≠ .empty
      ∧ (withPort State.reset .left (sending 1 1)).executes = true ∧ (sending 1 1).pass = .empty
      ∧ (sending 1 1).state = .sending := by decide

/-- Two frames in the queue leave a slot beside the REPLY's own; three leave none. -/
theorem witness_StatusNowEntersOrWaits :
    (let s := { State.reset with mgmt := { State.reset.mgmt with queue := List.replicate 2 (.reply 1#8 []) } }
     s.executes = true ∧ s.mgmt.queue.length + 1 < 4 ∧ s.claimWaits = false)
      ∧ (let s := { State.reset with mgmt := { State.reset.mgmt with queue := List.replicate 3 (.reply 1#8 []) } }
         s.executes = true ∧ 4 ≤ s.mgmt.queue.length + 1) ∧ (rec1 []).params = [] := by decide

/-- Three frames in the queue, and each claim waiting in turn. -/
theorem witness_FreedSlotGoesToFirstClaim :
    (State.reset.inReset = false ∧ State.reset.mgmt.queue = [] ∧ State.reset.claimWaits = false)
      ∧ (let m := { State.reset.mgmt with queue := List.replicate 3 (.reply 1#8 []) }
         let s := { State.reset with mgmt := m }
         s.inReset = false ∧ s.mgmt.queue.length + s.mgmt.reserved = 3 ∧ s.claimWaits = false
           ∧ s.mgmt.queue = .reply 1#8 [] :: List.replicate 2 (.reply 1#8 []) ∧ (UpFrame.reply 1#8 []).warmReply = false
           ∧ (withPort s .left { port0 with pass := .held request none }).ports.left.pass = .held request none
           ∧ (withPort s .right { port0 with pass := .held request none }).ports.right.pass = .held request none
           ∧ (s.ports.left.pass.offer .left).isNone = true ∧ (s.ports.right.pass.offer .right).isNone = true
           ∧ ({ s with mgmt := { m with statusClaim := true } } : State).mgmt.statusClaim = true
           ∧ ({ s with mgmt := { m with reportClaim := true } } : State).mgmt.statusClaim = false
           ∧ ({ s with mgmt := { m with reportClaim := true } } : State).mgmt.reportClaim = true) := by decide

theorem witness_TimerExpiryInTimebase :
    State.reset.inReset = false ∧ State.reset.bank.commitPending = false ∧ natField State.reset.bank.active 1 1 = 0
      ∧ natField (bankWrite [] 1 1 1#16) 1 1 ≠ 0 := by decide

/-- The reset state under EXTERNAL sync, at a time after the last event. -/
def external (since : Nat) : State :=
  { State.reset with
    bank := { State.reset.bank with active := bankWrite [] 1 1 1#16 }
    time := { State.reset.time with sinceEvent := since } }

theorem witness_EdgesPaceExternalSync :
    (State.reset.inReset = false ∧ natField State.reset.bank.active 1 1 = 0)
      ∧ (external 1999).inReset = false ∧ natField (external 1999).bank.active 1 1 ≠ 0
      ∧ SyncEdge.rising = syncEdge (external 1999).bank.active ∧ SyncEdge.falling ≠ syncEdge (external 1999).bank.active
      ∧ (external 1999).time.sinceEvent < 2000 ∧ 2000 ≤ (external 2000).time.sinceEvent
      ∧ SyncEdge.rising = syncEdge (external 2000).bank.active
      ∧ natField (external 2000).bank.active 1 2 = 0 ∧ natField (bankWrite [] 1 2 1#16) 1 2 ≠ 0
      ∧ (external 2000).composer.inFlight = none ∧ (external 2000).claimLaw = true
      ∧ (external 2000).bank.commitPending = false
      ∧ (let s := { external 2000 with bank := { (external 2000).bank with commitPending := true } }
         s.inReset = false ∧ natField s.bank.active 1 1 ≠ 0 ∧ 2000 ≤ s.time.sinceEvent) := by decide

theorem witness_StrobeEndAndMsTick :
    (State.reset.inReset = false ∧ State.reset.time.strobeActive = false)
      ∧ (let s := { State.reset with time := { State.reset.time with strobeActive := true, strobeLeft := 1 } }
         s.inReset = false ∧ s.time.strobeActive = true) := by decide

/-- DARK, NORMAL, TEST with each pattern, with the dwell running and at its end, and HOLD. -/
theorem witness_EventDecisions :
    (∀ s ∈ [State.reset, upState, testState, linkAt .lapsed .hold 0],
        s.inReset = false ∧ s.bank.commitPending = false ∧ s.composer.inFlight = none ∧ s.claimLaw = true)
      ∧ State.reset.sup.mode = .dark ∧ upState.sup.mode = .normal ∧ (linkAt .lapsed .hold 0).sup.mode = .hold
      ∧ (∀ cur ∈ [TestPattern.solid, .checker, .columnWalk, .rowWalk, .stored], ∀ dwell ∈ [0, 1], ∀ walk ∈ [0, 31],
          let s := { testState with sup := { testState.sup with current := some cur, dwell := dwell, walk := walk } }
          s.inReset = false ∧ s.bank.commitPending = false ∧ s.composer.inFlight = none ∧ s.claimLaw = true
            ∧ s.sup.mode = .test ∧ s.sup.program = some program ∧ s.sup.current = some cur)
      ∧ (let s := { upState with
                    motion := { upState.motion with requested := .adaptive }
                    sup := { upState.sup with sceneStale := false }
                    table := { upState.table with lastScene := some 0#32, tracks := [track 9 .confirmed, track 8 .coasting] } }
         s.inReset = false ∧ s.bank.commitPending = false ∧ s.composer.inFlight = none ∧ s.claimLaw = true
           ∧ s.sup.mode = .normal ∧ s.functionAtEvent = .adaptive
           ∧ (let kept := candidates s.bank.active s.time.msClock .left s.table.tracks
              kept.length = 2 ∧ ∀ v ∈ kept, ∀ w ∈ kept, v.left = w.left ∧ v.right = w.right)) := by decide

/-- No commit pending, with a request that stands, and a commit that is rejected. -/
theorem witness_EventFormsStatusFrames :
    (State.reset.inReset = false ∧ State.reset.composer.inFlight = none ∧ State.reset.claimLaw = true
        ∧ State.reset.bank.commitPending = false)
      ∧ (let s := { State.reset with mgmt := { State.reset.mgmt with reportRequest := true } }
         s.inReset = false ∧ s.composer.inFlight = none ∧ s.claimLaw = true ∧ s.bank.commitPending = false)
      ∧ (let s := { State.reset with
                    bank := { State.reset.bank with commitPending := true, staged := bankWrite [] 0 0 4#16 } }
         s.inReset = false ∧ s.composer.inFlight = none ∧ s.claimLaw = true ∧ s.bank.commitPending = true
           ∧ bankFault s.bank.staged ≠ none)
      ∧ ∃ u, exec .frameTimerExpiry
          { State.reset with mgmt := { State.reset.mgmt with reportRequest := false } } = .next u :=
  ⟨by decide, by decide, ⟨by decide, by decide, by decide, by decide, fun h => by
      have := bankFault_none.1 h 0 (by decide) 0 (by decide)
      exact absurd this (by decide)⟩, _, rfl⟩

/-- The defaults pass validation; a nominal interval of 4 in word 0 of table 0 is the first word that fails. -/
theorem witness_CommitAppliedOrRejected :
    (let s := { State.reset with bank := { State.reset.bank with commitPending := true } }
     s.inReset = false ∧ s.bank.commitPending = true
       ∧ ∀ id ∈ tableIds, ∀ off, off < tableSize id → wordOk s.bank.staged id off = true)
      ∧ (let s := { State.reset with
                    bank := { State.reset.bank with commitPending := true, staged := bankWrite [] 0 0 4#16 } }
         s.inReset = false ∧ s.bank.commitPending = true ∧ 0 ∈ tableIds ∧ 0 < tableSize 0
           ∧ wordOk s.bank.staged 0 0 = false
           ∧ ∀ j ∈ tableIds, ∀ k, k < tableSize j → (j < 0 ∨ (j = 0 ∧ k < 0)) → wordOk s.bank.staged j k = true) :=
  ⟨⟨rfl, rfl, bankFault_none.1 bankFault_defaults⟩, rfl, rfl, by decide, by decide, by decide,
    fun _ _ _ _ h => by omega⟩

/-- Words the checks of a commit name: the last row in use and the first one beyond it, an unused and a used entry of the
driver map with earlier entries of its side, and a position beyond the segments. -/
theorem witness_CommitChecks :
    2 < natField ([] : BankCopy) 3 0 ∧ natField ([] : BankCopy) 3 0 ≤ 3
      ∧ natField ([] : BankCopy) 7 (4 * 7 + 1) = 0 ∧ natField ([] : BankCopy) 7 (4 * 2 + 1) ≠ 0
      ∧ natField ([] : BankCopy) 7 (4 * 2) = sideCode .left
      ∧ (∀ j ∈ [0, 1], natField ([] : BankCopy) 7 (4 * j + 1) ≠ 0
          ∧ natField ([] : BankCopy) 7 (4 * j) = natField ([] : BankCopy) 7 (4 * 2))
      ∧ natField ([] : BankCopy) 3 0 * natField ([] : BankCopy) 3 1 ≤ 72 := by decide

/-- STAGED with EXTERNAL sync, LEFT alias 1 taken out of the driver map and LEFT alias 2 at another address. -/
def stagedOther : BankCopy := bankWrite (bankWrite (bankWrite [] 1 1 1#16) 7 1 0#16) 7 6 40#16

theorem stagedOther_valid : bankFault stagedOther = none :=
  bankFault_small (by decide) (by decide +kernel) (by decide +kernel)

/-- An applied commit: to EXTERNAL sync with a changed driver map, from an UP link with no, a due lapse, and a due lapse and
loss; and from EXTERNAL to INTERNAL sync in TEST. -/
theorem witness_CommitApplied :
    (∀ now ∈ [0, 70, 600],
        let s := { linkAt .up .normal now with bank := { State.reset.bank with commitPending := true, staged := stagedOther } }
        s.inReset = false ∧ s.bank.commitPending = true
          ∧ (∀ id ∈ tableIds, ∀ off, off < tableSize id → wordOk s.bank.staged id off = true)
          ∧ natField s.bank.active 1 1 = 0 ∧ natField s.bank.staged 1 1 ≠ 0 ∧ s.sup.mode = .normal
          ∧ (s.ports.get .left).chips[0]? = some (.fresh (some 16)) ∧ (s.ports.get .left).chips[3]? = some (.fresh none)
          ∧ chipEntry s.bank.staged .left 1 = none ∧ chipEntry s.bank.staged .left 4 = none
          ∧ (chipEntry s.bank.staged .left 2).map MapEntry.address = some 40
          ∧ (chipEntry s.bank.staged .left 3).map MapEntry.address = some 18)
      ∧ (let s := { testState with bank := { State.reset.bank with commitPending := true, active := bankWrite [] 1 1 1#16 } }
         s.inReset = false ∧ s.bank.commitPending = true
           ∧ (∀ id ∈ tableIds, ∀ off, off < tableSize id → wordOk s.bank.staged id off = true)
           ∧ natField s.bank.active 1 1 ≠ 0 ∧ natField s.bank.staged 1 1 = 0 ∧ s.sup.mode = .test) := by
  have h : ∀ id ∈ tableIds, ∀ off, off < tableSize id → wordOk stagedOther id off = true := bankFault_none.1 stagedOther_valid
  refine ⟨fun now _ => ⟨rfl, rfl, h, ?_⟩, rfl, rfl, bankFault_none.1 bankFault_defaults, ?_⟩
  · revert now; decide
  · decide

theorem witness_CompositionHandsFramesOn :
    (State.reset.inReset = false ∧ State.reset.composer.inFlight = none)
      ∧ (let s := { State.reset with
                    composer := { State.reset.composer with inFlight := some State.reset.inputsAtEvent } }
         s.inReset = false ∧ s.composer.inFlight = some State.reset.inputsAtEvent)
      ∧ (∀ d ∈ [Side.left, .right], (State.reset.segments.get d).length = 128)
      ∧ (∀ st ∈ [PortState.idle, .halted, .stopped, .sending, .halting],
          (withPort State.reset .left { port0 with state := st }).ports.left.state = st) := by
  refine ⟨⟨rfl, rfl⟩, ⟨rfl, rfl⟩, by decide, by decide⟩

theorem witness_FrameStartsOnIdlePort :
    port0.state = .idle
      ∧ (let taken := [1, 2, 3, 4].filterMap (fun chip => chipEntry ([] : BankCopy) .left chip)
         taken ≠ [] ∧ [1, 2, 3, 4].filterMap (fun chip => chipEntry (bankWriteAll [] 7 0 (List.replicate 32 0#16)) .left chip) = []) := by
  decide

theorem witness_TargetsOfDarkFallbackTest :
    let x := State.reset.inputsAtEvent
    segmentCount x.active .left ≤ 72 ∧ 71 < segmentCount x.active .left ∧ x.mode = .dark ∧ x.mode ≠ .normal
      ∧ ({ x with mode := .fallback } : CompositionInputs).mode = .fallback
      ∧ ({ x with mode := .test } : CompositionInputs).mode = .test := by decide

theorem witness_AdaptiveTargetIsSmallestLimit :
    let x : CompositionInputs :=
      { State.reset.inputsAtEvent with
        mode := .normal, function := .adaptive, crowded := 1
        windows := .both [{ left := -200, right := 50, bottom := -40, top := 90, residual := 0, cls := .preceding }] }
    x.mode = .normal ∧ x.function = .adaptive ∧ (∃ w ∈ x.windows.get .left, covers x.active .left w 1 10 = true)
      ∧ rowHigh x.active .left 1 = true := by decide

/-- NORMAL and HOLD with OFF and LOW, a stream called for that is fresh and one that is stale, and a segment in use. -/
theorem witness_AdaptiveTarget_base :
    let x := State.reset.inputsAtEvent
    (∀ m ∈ [BeamMode.normal, .hold], ∀ fn ∈ [LightFn.off, .low],
        let y := { x with mode := m, function := fn }
        (y.mode = .normal ∨ y.mode = .hold) ∧ y.function = fn ∧ (y.mode = .hold ∨ y.function ≠ .adaptive))
      ∧ (∀ age ∈ [5, 6],
          let y := { x with
            mode := .normal, function := .adaptive, source := .streamed
            streams := .both { levels := List.replicate 128 7, age := age, valid := true } }
          y.mode = .normal ∧ y.function = .adaptive ∧ y.source = .streamed ∧ (y.streams.get .left).valid = true
            ∧ (age = 5 → (y.streams.get .left).age ≤ natField y.active 8 3)
            ∧ (age = 6 → natField y.active 8 3 < (y.streams.get .left).age))
      ∧ 71 < segmentCount x.active .left := by decide

theorem witness_ShiftInterpolatesRow :
    0 < 8 ∧ 7 < 8 ∧ (16 * ((3 : Nat) : Int) - 20 = 16 * ((1 : Nat) : Int) + (12 : Nat)) ∧ 12 < 16 ∧ 1 + 1 < 8
      ∧ (16 * ((0 : Nat) : Int) - 20 < 0) ∧ (16 * (((8 : Nat) : Int) - 1) ≤ 16 * ((7 : Nat) : Int) - (-24)) ∧ (16 * ((8 : Nat) : Int) ≤ 128) ∧ ((-128 : Int) ≤ -16 * ((8 : Nat) : Int))
      ∧ (∀ k, k < 8 → 0 ≤ [0, 100, 250, 500, 750, 1000, 1000, 900].getD k 0
          ∧ [0, 100, 250, 500, 750, 1000, 1000, 900].getD k 0 ≤ 1000) := by decide

/-- A fall, a rise that waits, a rise that moves, and a segment at its target. -/
theorem witness_SegmentStepMovesToTarget :
    BeamMode.normal ≠ .test ∧ 0 < SegmentRecord.level { level := 888, hold := 0, lastFlag := false }
      ∧ SegmentRecord.level { level := 0, hold := 1, lastFlag := false } < 888
      ∧ 0 < SegmentRecord.hold { level := 0, hold := 1, lastFlag := false } := by decide

theorem witness_BendStageArithmetic :
    (0 : Int) < 256 ∧ (0 : Int) ≤ 256 ∧ (256 : Int) ≤ 256 ∧ Int.natAbs (-32767) ≤ 32767 ∧ Int.natAbs 12000 ≤ 12000
      ∧ 0 < 8 ∧ (469 - 464 : Int).natAbs ≤ 8 := by decide

/-- The rows of R29: no speed, neither turn signal, a slow car, and each pair of valid turn signals at the minimum speed. -/
theorem witness_BendStage_inputs :
    let m : Motion := { State.reset.motion with speed := 300, speedValid := true, yaw := 290, wheel := 60 }
    natField ([] : BankCopy) 2 7 = 300 ∧ ({ m with speedValid := false } : Motion).speedValid = false
      ∧ (m.yawValid = false ∧ m.wheelValid = false) ∧ ({ m with speed := 299 } : Motion).speed < 300
      ∧ ∀ v ∈ [(true, true), (true, false), (false, true)],
          let n : Motion := { m with yawValid := v.1, wheelValid := v.2 }
          n.speedValid = true ∧ (n.yawValid = true ∨ n.wheelValid = true) ∧ natField ([] : BankCopy) 2 7 ≤ n.speed := by decide

theorem witness_SegmentAckAnswersItem :
    (let s := withPort upState .left (sending 1 1)
     s.inReset = false ∧ s.claimLaw = true ∧ (segAck 16 false).late = false ∧ (s.ports.get .left).txn = .item item1 1 200
       ∧ (segAck 16 false).address = item1.address ∧ item1.last = false ∧ (s.ports.get .left).state ≠ .stopped
       ∧ ((s.ports.get .left).inFlight.bind fun f => f.items[f.position]?) = some item2)
      ∧ (let s := withPort upState .left (sending 2 1)
         s.inReset = false ∧ s.claimLaw = true ∧ (s.ports.get .left).txn = .item item2 1 200
           ∧ (segAck 17 false).address = item2.address ∧ item2.last = true ∧ (s.ports.get .left).state = .sending
           ∧ (s.ports.get .left).pendingFrame = none ∧ (s.ports.get .left).pass.isWaiting = false) := by decide

/-- A port at its last item, in each state with an item on the bus, in and out of TEST, with nothing, a frame or a
pass-through to go on with, the alias in the map and out of it. -/
theorem witness_PortProceeds :
    ∀ s0 ∈ [upState, testState], ∀ st ∈ [PortState.sending, .halting, .stopped], ∀ slot ∈ [PassSlot.empty, .waiting request],
      ∀ f ∈ [none, some (frame0 2)], ∀ n ∈ [1, 2],
        let s := withPort s0 .left { sending n 4 with state := st, pass := slot, pendingFrame := f }
        s.inReset = false ∧ s.claimLaw = true ∧ (s.ports.get .left).state = st ∧ (s.ports.get .left).pendingFrame = f
          ∧ (s.ports.get .left).txn = .item (if n = 1 then item1 else item2) 4 200
          ∧ (∀ g, f = some g → g.side = .left)
          ∧ (slot = .waiting request → (chipEntry s.bank.active .left request.chip).map MapEntry.address = some 16)
          ∧ chipEntry (bankWrite [] 7 1 0#16) .left request.chip = none := by
  intro s0 h0 st h1 slot h2 f h3 n h4
  simp only [List.mem_cons, List.not_mem_nil, or_false] at h0 h1 h2 h3 h4
  rcases h0 with rfl | rfl <;> rcases h1 with rfl | rfl | rfl <;> rcases h2 with rfl | rfl <;> rcases h3 with rfl | rfl <;>
    rcases h4 with rfl | rfl <;> exact ⟨rfl, by decide, rfl, rfl, rfl, by simp [frame0], by decide, by decide⟩

/-- A pass-through on the bus of a SENDING and of a HALTING port that a resume left with an item to begin. -/
theorem witness_PassEndsInFrame :
    ∀ st ∈ [PortState.sending, .halting],
      let s := withPort testState .left
        { passing st 4 with inFlight := some { frame := frame0 1, items := [item1, item2], position := 1 }, remainder := [item2] }
      s.inReset = false ∧ s.claimLaw = true ∧ (s.ports.get .left).txn = .pass 16 4 1000
        ∧ (s.ports.get .left).pass = .inProgress request ∧ (s.ports.get .left).state = st
        ∧ ((s.ports.get .left).inFlight.bind fun f => f.items[f.position]?) = some item2 := by decide

theorem witness_RegisterAckGivesResult :
    ∀ st ∈ [PortState.sending, .halting, .halted, .stopped],
      let s := withPort upState .left (passing st 1)
      s.inReset = false ∧ s.claimLaw = true ∧ (s.ports.get .left).txn = .pass 16 1 1000
        ∧ (s.ports.get .left).pass = .inProgress request ∧ (s.ports.get .left).inFlight = none
        ∧ (s.ports.get .left).pendingFrame = none ∧ (s.ports.get .left).state = st := by decide

/-- The third attempt of four permits another; the fourth is the last. -/
theorem witness_FailedAttemptsRetryThenSkip :
    (upState.inReset = false ∧ upState.claimLaw = true ∧ (upState.ports.get .left).txn = .quiet)
      ∧ (∀ n ∈ [3, 4], let s := withPort upState .left (sending 1 n)
          s.inReset = false ∧ s.claimLaw = true ∧ (s.ports.get .left).txn = .item item1 n 200)
      ∧ (∀ n ∈ [3, 4], ∀ st ∈ [PortState.sending, .halting, .halted, .stopped],
          let s := withPort testState .left (passing st n)
          s.inReset = false ∧ s.claimLaw = true ∧ (s.ports.get .left).txn = .pass 16 n 1000
            ∧ (s.ports.get .left).pass = .inProgress request ∧ (s.ports.get .left).state = st
            ∧ (s.ports.get .left).inFlight = none)
      ∧ 3 < 1 + natField upState.bank.active 8 10 ∧ ¬ 4 < 1 + natField upState.bank.active 8 10
      ∧ (({ side := .left, late := false, kind := .nakAnswer } : BadAnswer).late = false) := by decide

theorem witness_LinkCommandsAreWellFormed :
    (DownFrame.bytes (.motion (motion 800 7))).length ≤ 1028
      ∧ Instr.motionFrame (motion 800 7) ∈ linkCommands (DownFrame.bytes (.motion (motion 800 7)))
      ∧ (DownFrame.manage 7#8 [(0x03#8, []), (0x08#8, [0x13#8, 0x87#8])]).framed = true := by decide

theorem witness_UpstreamPayloadLengths :
    (State.reset.statusReport .periodic).chips.left.length = 4 ∧ (State.reset.statusReport .periodic).chips.right.length = 4
      ∧ (List.replicate 8 ({ command := 2#8, code := .ok, data := List.replicate 96 0#8 } : CommandResult)).length ≤ 8
      ∧ ∀ r ∈ List.replicate 8 ({ command := 2#8, code := .ok, data := List.replicate 96 0#8 } : CommandResult),
          r.data.length ≤ 96 := by decide

/-- The step from the reset state, with its laws: the laws of the queue, the mode, the bend, the tracks, the windows, the
ports and the ranges. -/
theorem witness_StepKeeps :
    State.reset.mgmt.queueLaw = true ∧ State.reset.claimLaw = true ∧ upState.modeLaw = true ∧ upState.bendLaw = true
      ∧ openScene.table.tracks.length = 7 ∧ State.reset.table.law = true ∧ State.reset.windowsLaw = true
      ∧ (withPort upState .left (sending 1 1)).portsLaw = true ∧ (withPort upState .left (sending 1 1)).probesLaw = true
      ∧ upState.rangeLaw = true ∧ step State.reset = .next (State.reset.elapse 1)
      ∧ step { upState with pending := [.lineSquelch] } = .next upState.squelched :=
  ⟨by decide, by decide, by decide, by decide, by decide, by decide, by decide, by decide, by decide, by decide, rfl, rfl⟩

theorem witness_StepKeepsBankAndLevelLaws :
    State.reset.bank.canonical = true ∧ State.reset.bank.activeValid = true ∧ State.reset.levelLaw = true
      ∧ step State.reset = .next (State.reset.elapse 1) := by
  have hv : State.reset.bank.activeValid = true := by
    simp only [TableBank.activeValid, State.reset, bankFault_defaults, Option.isNone_none]
  refine ⟨by decide, hv, ?_, rfl⟩
  simp only [State.levelLaw, hv, Bool.true_and]
  decide

/-- A step that changes the frame counter: an expiry, an accepted edge at the guard, a cold reset, and a warm reset at the end of
its REPLY and by its own command. -/
theorem witness_OutputFramesKeepGuard :
    (∃ t, step { State.reset with pending := [.frameTimerExpiry] } = .next t
        ∧ t.time.frameCounter ≠ State.reset.time.frameCounter)
      ∧ (∃ t, step { external 2000 with pending := [.fsyncEdge .rising] } = .next t
        ∧ t.time.frameCounter ≠ (external 2000).time.frameCounter)
      ∧ (∃ t, step { State.reset with
            pending := [.coldReset], time := { State.reset.time with frameCounter := 5#16 } } = .next t
          ∧ t.time.frameCounter ≠ 5#16)
      ∧ (∀ c ∈ [Instr.upstreamFrameSent, .warmResetTakesEffect],
          ∃ t, step { warmQueue with pending := [c], time := { warmQueue.time with frameCounter := 5#16 } } = .next t
            ∧ t.time.frameCounter ≠ 5#16) := by
  refine ⟨⟨_, rfl, by decide⟩, ⟨_, rfl, by decide⟩, ⟨_, rfl, by decide⟩, fun c hc => ?_⟩
  simp only [List.mem_cons, List.not_mem_nil, or_false] at hc
  rcases hc with rfl | rfl <;> exact ⟨_, rfl, by decide⟩

/-- A step that changes ACTIVE: a cold reset of a bank with a changed word. -/
theorem witness_ActiveChangesByCommitAlone :
    ∃ t, step { State.reset with
          pending := [.coldReset], bank := { State.reset.bank with active := bankWrite [] 0 0 25#16 } } = .next t
        ∧ t.bank.active ≠ bankWrite [] 0 0 25#16 :=
  ⟨_, rfl, by decide⟩

theorem witness_OwnersAloneChangeTheirState :
    (∃ t, exec (.motionFrame (motion 800 7)) State.reset = .next t ∧ t.motion ≠ State.reset.motion)
      ∧ (∃ t, exec .msClockTick State.reset = .next t ∧ t.time.msClock ≠ State.reset.time.msClock)
      ∧ (∃ t, exec .resetEnds State.reset.coldReset = .next t ∧ t.inReset ≠ State.reset.coldReset.inReset)
      ∧ (∃ t, exec .compositionComplete
            { upState with composer := { upState.composer with
                inFlight := some { upState.inputsAtEvent with mode := .test, test := .both (List.replicate 128 9) } } } = .next t
          ∧ t.segments ≠ upState.segments)
      ∧ (∃ t, exec .upstreamFrameSent { State.reset with mgmt := { State.reset.mgmt with queue := [.reply 8#8 []] } } = .next t)
      ∧ (UpFrame.reply 8#8 []).warmReply = false
      ∧ Instr.msClockTick ≠ .coldReset ∧ Instr.msClockTick ≠ .warmResetTakesEffect :=
  ⟨⟨_, rfl, by decide⟩, ⟨_, rfl, by decide⟩, ⟨_, rfl, by decide⟩, ⟨_, rfl, by decide⟩, ⟨_, rfl⟩, by decide, by decide,
    by decide⟩

end Sys2Proof.Tests
end

section
/-! SUPPORT. PATTERN_FRAME (R8): the side a frame names, its framing, and a discarded frame. -/

namespace Sys2Proof.Machine

open Sys2Proof

/-- The side a code names, by the code's number (R126). -/
theorem sideOf_eq (code : Byte) :
    sideOf code = if code.toNat = 0 then some .left else if code.toNat = 1 then some .right else none := by
  have h0 : code = 0#8 ↔ code.toNat = 0 := BitVec.toNat_inj.symm
  have h1 : code = 1#8 ↔ code.toNat = 1 := BitVec.toNat_inj.symm
  simp only [sideOf, h0, h1]

/-- A side code names exactly the side of its number (R126). -/
theorem sideOf_eq_some_iff (code : Byte) (d : Side) : sideOf code = some d ↔ code.toNat = sideCode d := by
  rw [sideOf_eq]
  split_ifs with hl hr
  · cases d <;> simp [hl, sideCode]
  · cases d <;> simp [hr, sideCode]
  · cases d <;> simp [hl, hr, sideCode]

/-- Codes above 1 name no side (R126). -/
theorem sideOf_eq_none_iff (code : Byte) : sideOf code = none ↔ 1 < code.toNat := by
  rw [sideOf_eq]
  split_ifs with hl hr
  · simp [hl]
  · simp [hr]
  · simp only [true_iff]
    omega

/-- A PATTERN payload is framed when it names a side and carries 128 levels (R123). -/
theorem patternFramed_iff (p : PatternPayload) :
    p.framed = true ↔ (∃ d, sideOf p.side = some d) ∧ p.levels.length = 128 := by
  simp [PatternPayload.framed, Option.isSome_iff_exists]

/-- A framed PATTERN frame is taken for its side (R8). -/
theorem State.patternFrame_of_framed {s : State} {p : PatternPayload} {d : Side} (hd : sideOf p.side = some d)
    (hl : p.levels.length = 128) : s.patternFrame p = s.patternArrives p d := by
  have hf : p.framed = true := (patternFramed_iff p).2 ⟨⟨d, hd⟩, hl⟩
  simp [State.patternFrame, hd, hf]

/-- An ill-framed PATTERN frame is discarded (R8, R123). -/
theorem State.patternFrame_of_not_framed {s : State} {p : PatternPayload} (h : p.framed = false) :
    s.patternFrame p = s.frameDiscarded false := by
  cases hd : sideOf p.side <;> simp [State.patternFrame, hd, h]

/-- Settles O17. -/
theorem patternReplacesBuffer : Obligations.PatternReplacesBuffer := by
  refine ⟨fun p d s hr hside hlen => ?_, fun p s hr hbad => ?_⟩
  · have hd : sideOf p.side = some d := (sideOf_eq_some_iff _ _).2 hside
    refine ⟨s.patternArrives p d, ?_, ?_, fun e he => ?_, rfl, rfl, rfl⟩
    · simp only [exec, execPatternFrame, State.running_normal hr, State.patternFrame_of_framed hd hlen]
    · have hclamp : (fun w : Word => min Config.maxLevel w.toNat) = fun w => if 1023 < w.toNat then 1023 else w.toNat := by
        funext w; simp only [Config.maxLevel]; split_ifs <;> omega
      simp [State.patternArrives, streamOf, hclamp]
    · exact Sided.get_set_of_ne _ he _
  · have hf : p.framed = false := by
      rw [Bool.eq_false_iff, ne_eq, patternFramed_iff]
      rintro ⟨⟨d, hd⟩, hl⟩
      rcases hbad with hside | hlen
      · rw [(sideOf_eq_none_iff _).2 hside] at hd
        cases hd
      · exact hlen hl
    simp only [exec, execPatternFrame, State.running_normal hr, State.patternFrame_of_not_framed hf]
    rfl

end Sys2Proof.Machine
end

section
/-! SUPPORT. The Frame Composer's targets stage by stage (R10 to R17): what each stage is where it applies, and where it
does not. -/

namespace Sys2Proof.Machine

open Sys2Proof

/-! ### Positions (R1) -/

theorem targetLevel_of_lt {x : CompositionInputs} {d : Side} {n : Nat} (h : n < segmentCount x.active d) :
    targetLevel x d n = segmentTarget x d (n / colCount x.active d) (n % colCount x.active d) := by
  simp [targetLevel, h]

theorem targetLevel_of_le {x : CompositionInputs} {d : Side} {n : Nat} (h : segmentCount x.active d ≤ n) :
    targetLevel x d n = 0 := by
  simp [targetLevel, h]

theorem targetFlag_of_lt {x : CompositionInputs} {d : Side} {n : Nat} (h : n < segmentCount x.active d) :
    targetFlag x d n = shadowedAt x d (n / colCount x.active d) (n % colCount x.active d) := by
  simp [targetFlag, h]

theorem targetFlag_of_le {x : CompositionInputs} {d : Side} {n : Nat} (h : segmentCount x.active d ≤ n) :
    targetFlag x d n = false := by
  simp [targetFlag, h]

/-! ### Where stages 3 and 4 apply (R13, R15) -/

theorem CompositionInputs.adaptive_iff (x : CompositionInputs) :
    x.adaptive = true ↔ x.mode = .normal ∧ x.function = .adaptive := by
  simp [CompositionInputs.adaptive]

theorem CompositionInputs.adaptive_eq_false {x : CompositionInputs} (h : x.mode ≠ .normal ∨ x.function ≠ .adaptive) :
    x.adaptive = false := by
  rw [Bool.eq_false_iff, ne_eq, x.adaptive_iff]
  tauto

/-- Outside NORMAL with ADAPTIVE no flag is set (R14). -/
theorem shadowedAt_of_not_adaptive {x : CompositionInputs} (h : x.adaptive = false) (d : Side) (r c : Nat) :
    shadowedAt x d r c = false := by
  simp [shadowedAt, h]

/-- Outside NORMAL with ADAPTIVE the bent value goes to the derate cap as it is (R13, R15). -/
theorem segmentTarget_of_not_adaptive {x : CompositionInputs} (h : x.adaptive = false) (d : Side) (r c : Nat) :
    segmentTarget x d r c = deratedLevel x d (bentLevel x d r c) := by
  simp [segmentTarget, crowdedLevel, shadowLevel, h]

/-- Outside TEST the derate cap is the derate level while the side derates (R16). -/
theorem deratedLevel_of_ne_test {x : CompositionInputs} (h : x.mode ≠ .test) (d : Side) (v : Nat) :
    deratedLevel x d v = if x.derate.get d = true then min v (natField x.active 8 6) else v := by
  simp [deratedLevel, h, derateLevel, idSupervision]

/-- In TEST there is no derate cap (R17). -/
theorem deratedLevel_of_test {x : CompositionInputs} (h : x.mode = .test) (d : Side) (v : Nat) : deratedLevel x d v = v := by
  simp [deratedLevel, h]

/-! ### Stage 2 (R10) -/

theorem bentLevel_of_shifting {x : CompositionInputs} (h : x.mode = .normal ∨ x.mode = .hold) (d : Side) (r c : Nat) :
    bentLevel x d r c
      = shiftedValue (fun i => baseLevel x d (r * colCount x.active d + i)) (colCount x.active d) (x.shift.get d) c := by
  simp only [bentLevel, if_pos h]

/-- In the other modes position `n` keeps its base value. -/
theorem bentLevel_of_not_shifting {x : CompositionInputs} (h : ¬ (x.mode = .normal ∨ x.mode = .hold)) (d : Side) (n : Nat) :
    bentLevel x d (n / colCount x.active d) (n % colCount x.active d) = baseLevel x d n := by
  simp only [bentLevel, if_neg h, Nat.div_add_mod']

/-- The target of a segment in DARK, FALLBACK and TEST: its base value under the derate cap (R16, R17). -/
theorem targetLevel_of_not_shifting {x : CompositionInputs} (h : ¬ (x.mode = .normal ∨ x.mode = .hold)) {d : Side} {n : Nat}
    (hn : n < segmentCount x.active d) : targetLevel x d n = deratedLevel x d (baseLevel x d n) := by
  have ha : x.adaptive = false := CompositionInputs.adaptive_eq_false (.inl fun hm => h (.inl hm))
  rw [targetLevel_of_lt hn, segmentTarget_of_not_adaptive ha, bentLevel_of_not_shifting h]

/-! ### Words of the patterns (R152) -/

theorem sideOffset_eq (d : Side) : sideOffset d = 128 * sideCode d := by cases d <;> rfl

theorem geometryId_eq (d : Side) : geometryId d = 3 + sideCode d := by cases d <;> rfl

/-- Settles O37: outside NORMAL and HOLD a target is its base value under the derate cap. -/
theorem targetsOfDarkFallbackTest : Obligations.TargetsOfDarkFallbackTest := by
  intro x d n
  refine ⟨fun h => ⟨targetLevel_of_le h, targetFlag_of_le h⟩, fun hn => ⟨fun hm => ?_, fun hm => ?_, fun hm => ?_⟩,
    fun hm => ?_⟩
  · rw [targetLevel_of_not_shifting (by simp [hm]) hn, deratedLevel_of_ne_test (by simp [hm])]
    simp [baseLevel, hm]
  · rw [targetLevel_of_not_shifting (by simp [hm]) hn, deratedLevel_of_ne_test (by simp [hm])]
    simp only [baseLevel, hm, fallbackLevel, sideOffset_eq, idFallback]
  · rw [targetLevel_of_not_shifting (by simp [hm]) hn, deratedLevel_of_test hm]
    simp [baseLevel, hm]
  · have hs := shadowedAt_of_not_adaptive (CompositionInputs.adaptive_eq_false (.inl hm)) d
    simp only [targetFlag, hs, Bool.and_false]

/-! ### Stages 3 to 5 in NORMAL with ADAPTIVE (R13 to R16) -/

theorem mem_coveringWindows {x : CompositionInputs} {d : Side} {r c : Nat} {w : Window} :
    w ∈ coveringWindows x d r c ↔ w ∈ x.windows.get d ∧ covers x.active d w r c = true := by
  simp [coveringWindows]

/-- A segment is shadowed when a window covers it (R14). -/
theorem shadowedAt_iff {x : CompositionInputs} (h : x.adaptive = true) (d : Side) (r c : Nat) :
    shadowedAt x d r c = true ↔ ∃ w ∈ x.windows.get d, covers x.active d w r c = true := by
  simp [shadowedAt, h, coveringWindows]

/-- What lies below the shadowed value lies below the value and every covering window's residual (R13). -/
theorem le_shadowLevel_iff {x : CompositionInputs} (h : x.adaptive = true) (d : Side) (r c u v : Nat) :
    v ≤ shadowLevel x d r c u ↔ v ≤ u ∧ ∀ w ∈ x.windows.get d, covers x.active d w r c = true → v ≤ w.residual := by
  simp [shadowLevel, h, le_foldl_residual, mem_coveringWindows]

/-- What lies below the value after the crowded cap (R15). -/
theorem le_crowdedLevel_iff {x : CompositionInputs} (h : x.adaptive = true) (d : Side) (r u v : Nat) :
    v ≤ crowdedLevel x d r u
      ↔ v ≤ u ∧ (0 < x.crowded → rowHigh x.active d r = true → v ≤ natField x.active 8 5) := by
  by_cases hc : 0 < x.crowded ∧ rowHigh x.active d r = true
  · simp [crowdedLevel, h, hc, crowdedCap, idSupervision]
  · have hcap : crowdedLevel x d r u = u := by
      simp only [crowdedLevel, h, Bool.true_and, Bool.and_eq_true, decide_eq_true_eq, if_neg hc]
    rw [hcap]
    tauto

/-- What lies below the value after the derate cap (R16). -/
theorem le_deratedLevel_iff {x : CompositionInputs} (h : x.mode ≠ .test) (d : Side) (u v : Nat) :
    v ≤ deratedLevel x d u ↔ v ≤ u ∧ (x.derate.get d = true → v ≤ natField x.active 8 6) := by
  rw [deratedLevel_of_ne_test h]
  split_ifs with hd <;> simp [hd]

/-! ### Geometry and base pattern (R1, R5, R6, R76) -/

/-- A window covers a segment by the four inequalities of R76. -/
theorem covers_iff (b : BankCopy) (d : Side) (w : Window) (r c : Nat) :
    covers b d w r c = true ↔
      w.left < intField b (3 + sideCode d) 3 + ((c : Int) + 1) * (natField b (3 + sideCode d) 2 : Int)
      ∧ intField b (3 + sideCode d) 3 + (c : Int) * (natField b (3 + sideCode d) 2 : Int) < w.right
      ∧ w.bottom < intField b (3 + sideCode d) (4 + 2 * r) ∧ intField b (3 + sideCode d) (5 + 2 * r) < w.top := by
  simp only [covers, spanLeft, colWidth, rowTop, rowBottom, geometryId_eq, Bool.and_eq_true, decide_eq_true_eq, and_assoc]

/-- A buffer is fresh when it is valid and no older than the hold of the table (R6). -/
theorem StreamBuffer.fresh_iff (b : BankCopy) (s : StreamBuffer) :
    s.fresh b = true ↔ s.valid = true ∧ s.age ≤ natField b 8 3 := by
  simp only [StreamBuffer.fresh, Bool.and_eq_true, decide_eq_true_eq]
  rfl

/-- Position `n` of a stored pattern as its word (R5, R152). -/
theorem patternLevel_eq (b : BankCopy) (i : Nat) (d : Side) (n : Nat) :
    patternLevel b i d n = natField b (16 + i) (128 * sideCode d + n) := by
  rw [patternLevel, sideOffset_eq]

/-- The base pattern in NORMAL with ADAPTIVE (R5, R6). -/
theorem baseLevel_of_adaptive {x : CompositionInputs} (hm : x.mode = .normal) (hf : x.function = .adaptive) (d : Side)
    (n : Nat) :
    baseLevel x d n
      = if x.source = .streamed ∧ (x.streams.get d).fresh x.active = true then (x.streams.get d).levels.getD n 0
        else patternLevel x.active x.adaptiveIndex d n := by
  simp only [baseLevel, hm, hf]

/-- Settles O38, stage by stage: the target is what each stage in turn lowers it to. -/
theorem adaptiveTargetIsSmallestLimit : Obligations.AdaptiveTargetIsSmallestLimit := by
  refine ⟨fun b d w r c => ⟨covers_iff b d w r c, ?_, ?_, ?_⟩, fun x d n => ⟨fun hm => ?_, fun hm hf => ⟨?_, ?_⟩, fun hn => ?_⟩,
    fun x d r c hm => ⟨bentLevel_of_shifting hm d r c, fun hnot => ?_⟩, fun x d r c v hm hf => ?_⟩
  · simp [rowHigh, geometryId_eq]
  · simp only [colCount, geometryId_eq]
  · simp only [segmentCount, rowCount, colCount, geometryId_eq]
  · rcases hm with hm | hm <;> refine ⟨fun hf => ?_, fun hf => ?_⟩ <;> simp [baseLevel, hm, hf, patternLevel_eq]
  · intro hs hv ha
    have hfresh := (StreamBuffer.fresh_iff _ _).2 ⟨hv, ha⟩
    rw [baseLevel_of_adaptive hm hf, if_pos ⟨hs, hfresh⟩]
  · intro hs
    have hnot : ¬ (x.source = .streamed ∧ (x.streams.get d).fresh x.active = true) := by
      rw [StreamBuffer.fresh_iff]
      rintro ⟨h1, h2, h3⟩
      rcases hs with hs | hs | hs
      · simp [hs] at h1
      · simp [hs] at h2
      · omega
    rw [baseLevel_of_adaptive hm hf, if_neg hnot, patternLevel_eq]
  · exact ⟨targetLevel_of_lt hn, targetFlag_of_lt hn⟩
  · have ha : x.adaptive = false := by
      refine CompositionInputs.adaptive_eq_false (hnot.imp (fun h => ?_) id)
      simp [h]
    have ht : x.mode ≠ .test := by rcases hm with hm | hm <;> simp [hm]
    exact ⟨by rw [segmentTarget_of_not_adaptive ha, deratedLevel_of_ne_test ht], shadowedAt_of_not_adaptive ha d r c⟩
  · have ha : x.adaptive = true := x.adaptive_iff.2 ⟨hm, hf⟩
    refine ⟨shadowedAt_iff ha d r c, ?_⟩
    rw [segmentTarget, le_deratedLevel_iff (by simp [hm]), le_crowdedLevel_iff ha, le_shadowLevel_iff ha]
    tauto

/-! ### The shift within a row (R11, R12) -/

theorem rowSample_inside (bp : Nat → Nat) {cols k : Nat} (h : k < cols) : rowSample bp cols k = bp k := by
  rw [rowSample, clampInt]
  congr 1
  omega

theorem rowSample_left (bp : Nat → Nat) {cols : Nat} {k : Int} (h : k ≤ 0) :
    rowSample bp cols k = bp 0 := by
  rw [rowSample, clampInt]
  congr 1
  omega

theorem rowSample_right (bp : Nat → Nat) {cols : Nat} {k : Int} (h : (cols : Int) - 1 ≤ k) :
    rowSample bp cols k = bp (cols - 1) := by
  rw [rowSample, clampInt]
  congr 1
  omega

/-- A sample is a value of its row (R12). -/
theorem rowSample_mem (bp : Nat → Nat) {cols : Nat} (hc : 0 < cols) (k : Int) :
    ∃ i, i < cols ∧ rowSample bp cols k = bp i := by
  refine ⟨_, ?_, rfl⟩
  rw [clampInt]
  omega

/-- The shifted value from the point's place among the columns: 16c − s16 = 16k + f (R11). -/
theorem shiftedValue_of_place (bp : Nat → Nat) (cols : Nat) {s16 k : Int} {c f : Nat}
    (h : 16 * (c : Int) - s16 = 16 * k + f) (hf : f < 16) :
    shiftedValue bp cols s16 c = ((16 - f) * rowSample bp cols k + f * rowSample bp cols (k + 1) + 8) / 16 := by
  have hk : (16 * (c : Int) - s16) / 16 = k := by omega
  have hf' : (16 * (c : Int) - s16 - 16 * k).toNat = f := by omega
  simp only [shiftedValue, hk, hf']

/-- Every point has a place among the columns. -/
theorem exists_place (p : Int) : ∃ (k : Int) (f : Nat), p = 16 * k + f ∧ f < 16 :=
  ⟨p / 16, (p % 16).toNat, by omega, by omega⟩

/-- A mean of equal values is their value. -/
theorem mean_self {f : Nat} (hf : f < 16) (v : Nat) : ((16 - f) * v + f * v + 8) / 16 = v := by
  have h : (16 - f) * v + f * v = 16 * v := by rw [← Nat.add_mul]; congr 1; omega
  omega

/-- A mean lies between bounds of its two values. -/
theorem mean_between {f lo hi u v : Nat} (hf : f < 16) (hu : lo ≤ u ∧ u ≤ hi) (hv : lo ≤ v ∧ v ≤ hi) :
    lo ≤ ((16 - f) * u + f * v + 8) / 16 ∧ ((16 - f) * u + f * v + 8) / 16 ≤ hi := by
  have hle : ∀ {a b c d : Nat}, a ≤ b → c ≤ d → ((16 - f) * a + f * c + 8) / 16 ≤ ((16 - f) * b + f * d + 8) / 16 :=
    fun hab hcd => by gcongr
  exact ⟨(mean_self hf lo).symm.le.trans (hle hu.1 hv.1), (hle hu.2 hv.2).trans (mean_self hf hi).le⟩

/-- A point left of column 0 takes the first base value (R12). -/
theorem shiftedValue_left (bp : Nat → Nat) {cols c : Nat} {s16 : Int} (h : 16 * (c : Int) - s16 < 0) :
    shiftedValue bp cols s16 c = bp 0 := by
  obtain ⟨k, f, hp, hf⟩ := exists_place (16 * (c : Int) - s16)
  rw [shiftedValue_of_place bp cols hp hf, rowSample_left bp (by omega), rowSample_left bp (by omega), mean_self hf]

/-- A point at or beyond the last column takes the last base value (R12). -/
theorem shiftedValue_right (bp : Nat → Nat) {cols c : Nat} {s16 : Int}
    (h : 16 * ((cols : Int) - 1) ≤ 16 * (c : Int) - s16) : shiftedValue bp cols s16 c = bp (cols - 1) := by
  obtain ⟨k, f, hp, hf⟩ := exists_place (16 * (c : Int) - s16)
  rw [shiftedValue_of_place bp cols hp hf, rowSample_right bp (by omega), rowSample_right bp (by omega), mean_self hf]

/-- Settles O39: the two samples of a point are the neighbours of its place, or the edge value. -/
theorem shiftInterpolatesRow : Obligations.ShiftInterpolatesRow := by
  intro bp cols c s16 hcols hc
  refine ⟨fun k f hp hf hk => ?_, shiftedValue_left bp, shiftedValue_right bp, ?_, fun lo hi hrow => ?_,
    fun h => shiftedValue_left bp (by omega), fun h => shiftedValue_right bp (by omega)⟩
  · have hv := shiftedValue_of_place bp cols hp hf
    rw [rowSample_inside bp (by omega), ← Nat.cast_add_one, rowSample_inside bp hk] at hv
    generalize (16 - f) * bp k + f * bp (k + 1) = m at hv ⊢
    omega
  · rw [shiftedValue_of_place bp cols (k := c) (f := 0) (by simp) (by omega), rowSample_inside bp hc]
    omega
  · obtain ⟨k, f, hp, hf⟩ := exists_place (16 * (c : Int) - s16)
    obtain ⟨i, hi, hui⟩ := rowSample_mem bp hcols k
    obtain ⟨j, hj, huj⟩ := rowSample_mem bp hcols (k + 1)
    rw [shiftedValue_of_place bp cols hp hf, hui, huj]
    exact mean_between hf (hrow i hi) (hrow j hj)

end Sys2Proof.Machine
end

section
/-! SUPPORT. Composition complete (R18, R81, R90, R98): the frames handed on, position by position and port by port. -/

namespace Sys2Proof.Machine

open Sys2Proof

/-- Without a composition in progress nothing happens. -/
theorem State.completeComposition_none {s : State} (h : s.composer.inFlight = none) : s.completeComposition = s := by
  simp only [State.completeComposition, h]

theorem targetFrame_level (x : CompositionInputs) (d : Side) {n : Nat} (h : n < 128) :
    (targetFrame x d).levels[n]? = some (targetLevel x d n) := by
  simp [targetFrame, h]

theorem targetFrame_flag (x : CompositionInputs) (d : Side) {n : Nat} (h : n < 128) :
    (targetFrame x d).shadowed[n]? = some (targetFlag x d n) := by
  simp [targetFrame, h]

/-- Each record of a side takes its step against the target and flag of its position (R81). -/
theorem State.steppedSide_get (s : State) (x : CompositionInputs) (d : Side) {n : Nat} (h : n < 128) :
    (s.steppedSide x d)[n]?
      = ((s.segments.get d)[n]?).map (SegmentRecord.step x.active x.mode (targetLevel x d n) (targetFlag x d n)) := by
  rw [State.steppedSide, stepSide, stepRecords_get, targetFrame_level x d h, targetFrame_flag x d h]
  cases (s.segments.get d)[n]? <;> rfl

/-- A HALTED or STOPPED port discards the frame (R98). -/
theorem Port.frameArrives_discarded (b : BankCopy) (f : OutputFrame) {p : Port}
    (h : p.state = .halted ∨ p.state = .stopped) : (p.frameArrives b f).port = p := by
  rcases h with h | h <;> simp only [Port.frameArrives, h]

/-- At a SENDING or HALTING port the frame becomes pending (R98). -/
theorem Port.frameArrives_pending (b : BankCopy) (f : OutputFrame) {p : Port}
    (h : p.state = .sending ∨ p.state = .halting) : (p.frameArrives b f).port = { p with pendingFrame := some f } := by
  rcases h with h | h <;> simp only [Port.frameArrives, h]

/-- FRAME_SUPERSEDED is set where a pending frame is replaced (R98). -/
theorem Port.frameArrives_mask (b : BankCopy) (f : OutputFrame) (p : Port) :
    (p.frameArrives b f).mask
      = (Flag.frameSuperseded f.side).maskIf
          ((p.state == .sending || p.state == .halting) && p.pendingFrame.isSome) := by
  cases h : p.state <;> simp only [Port.frameArrives, h] <;> rfl

/-- The flags of both frames: each side's FRAME_SUPERSEDED by its own port (R98). -/
theorem State.frameToPort_masks (s : State) (x : CompositionInputs) (d : Side) :
    ((s.frameToPort x .left).mask ||| (s.frameToPort x .right).mask).getLsbD (Flag.frameSuperseded d).bit
      = (((s.ports.get d).state == .sending || (s.ports.get d).state == .halting)
          && (s.ports.get d).pendingFrame.isSome) := by
  simp only [State.frameToPort, Port.frameArrives_mask, outputFrame, BitVec.getLsbD_or, Flag.maskIf_bit]
  cases d <;> simp

/-- What composition complete leaves where one is in progress (R18). -/
theorem State.completeComposition_some {s : State} {x : CompositionInputs} (h : s.composer.inFlight = some x) :
    s.completeComposition
      = ({ s with
            composer := { s.composer with inFlight := none, targets := Sided.of (targetFrame x) }
            segments := Sided.of (s.steppedSide x)
            ports := Sided.of (fun d => (s.frameToPort x d).port) } :
          State).raise ((s.frameToPort x .left).mask ||| (s.frameToPort x .right).mask) := by
  simp only [State.completeComposition, h]

/-- Settles O35. -/
theorem compositionHandsFramesOn : Obligations.CompositionHandsFramesOn := by
  refine ⟨fun s hr hf => ?_, fun s x hr hf _ => ?_⟩
  · simp only [exec, execCompositionComplete, State.running_normal hr, State.completeComposition_none hf]
  · refine ⟨s.completeComposition, by simp only [exec, execCompositionComplete, State.running_normal hr], ?_⟩
    rw [State.completeComposition_some hf]
    refine ⟨rfl, rfl, fun d n hn => ⟨?_, ?_, ?_⟩, fun d => ⟨fun _ => ?_, fun hs => ?_, fun hs => ?_, ?_⟩, hr,
      rfl, rfl, rfl, rfl, rfl, rfl, rfl, rfl, rfl, rfl, rfl⟩
    · simp only [State.raise_composer, Sided.get_of, targetFrame_level x d hn]
    · simp only [State.raise_composer, Sided.get_of, targetFrame_flag x d hn]
    · simp only [State.raise_segments, Sided.get_of, s.steppedSide_get x d hn]
    · simp only [State.raise_ports, State.raise_segments, Sided.get_of, State.frameToPort, outputFrame]
    · simp only [State.raise_ports, Sided.get_of, State.frameToPort, Port.frameArrives_discarded _ _ hs]
    · simp only [State.raise_ports, State.raise_segments, Sided.get_of, State.frameToPort,
        Port.frameArrives_pending _ _ hs, outputFrame]
    · rw [State.raise_flag, State.frameToPort_masks]
      rfl

end Sys2Proof.Machine
end

section
/-! SUPPORT. The blocks' decisions at an output frame event (R3, R6, R9, R28, R50, R63, R114, R120, R121): each block's
part, and the event of the timer without a commit or a composition in flight. -/

namespace Sys2Proof.Machine

open Sys2Proof

/-! ### Window Builder (R64 to R74) -/

/-- Which tracks cast a shadow (R64). -/
theorem casts_eq_decide (b : BankCopy) (e : Track) :
    casts b e = decide (e.state = .confirmed ∨ e.state = .coasting
      ∨ (e.state = .tentative ∧ natField b 5 (12 * e.cls.code + 3) ≠ 0)) := by
  cases h : e.state <;> simp [casts, h, shadowsTentative, classField, idClass, bne, beq_eq_decide]

/-- The parallax margin is the side's where the track is without distance (R69). -/
theorem distanceMargin_eq (b : BankCopy) (d : Side) (e : Track) :
    distanceMargin b d e = if e.distance = none then natField b (3 + sideCode d) 18 else 0 := by
  cases h : e.distance <;> simp [distanceMargin, h, parallaxMargin, geometryId_eq]

/-- The horizontal margin of a candidate, with the no-rate margin where it is without rate (R70). -/
theorem sideMargin_eq (b : BankCopy) (d : Side) (e : Track) :
    sideMargin b d e = min (maximumMargin b e.cls) (horizontalMargin b e.cls + e.misses * coastWidening b e.cls)
      + (if e.rate = none then noRateMargin b e.cls else 0) + distanceMargin b d e := by
  cases h : e.rate <;> simp [sideMargin, h]

/-- A side's list: the candidates sorted, then swept (R73, R74). -/
theorem buildWindows_eq (b : BankCopy) (now : MsTime) (d : Side) (ts : List Track) :
    buildWindows b now d ts
      = ((sortWindows (candidates b now d ts)).foldl (sweepStep (minGap b)) []).reverse := by
  rw [buildWindows, sweep_eq_foldl]

/-- Both lists at an event, side by side (R63). -/
theorem windowsAt_get (b : BankCopy) (now : MsTime) (mode : BeamMode) (fn : LightFn) (ts : List Track) (d : Side) :
    (windowsAt b now mode fn ts).get d
      = if mode = .normal ∧ fn = .adaptive then buildWindows b now d ts else [] := by
  rw [windowsAt]
  split_ifs <;> simp

/-! ### Bend Unit and streamed patterns (R6, R28, R29) -/

theorem BendUnit.frame_kept {mode : BeamMode} (h : mode = .fallback ∨ mode = .dark ∨ mode = .test) (b : BankCopy)
    (m : Motion) (u : BendUnit) : u.frame b mode m = { u with inputLost := false } := by
  rcases h with rfl | rfl | rfl <;> rfl

theorem BendUnit.frame_pass {mode : BeamMode} (h : mode = .normal ∨ mode = .hold) (b : BankCopy) (m : Motion)
    (u : BendUnit) : u.frame b mode m = u.pass b m := by
  rcases h with rfl | rfl <;> rfl

/-- BEND_INPUT_LOST: no valid speed, or neither a valid yaw rate nor a valid wheel angle (R29). -/
theorem bendInput_lost (b : BankCopy) (m : Motion) :
    (bendInput b m == .lost) = (!m.speedValid || (!m.yawValid && !m.wheelValid)) := by
  rw [bendInput]
  by_cases hs : m.speedValid = true
  · by_cases hv : (!m.yawValid && !m.wheelValid) = true
    · simp [hs, hv]
    · rw [if_neg (by simp [hs]), if_neg hv, hs, Bool.eq_false_iff.2 hv]
      split_ifs <;> rfl
  · simp [hs]

theorem wantsStream_iff (mode : BeamMode) (fn : LightFn) (src : PatternSource) :
    wantsStream mode fn src = true ↔ mode = .normal ∧ fn = .adaptive ∧ src = .streamed := by
  simp [wantsStream, and_assoc]

theorem StreamBuffer.not_fresh_iff (b : BankCopy) (s : StreamBuffer) :
    s.fresh b = false ↔ s.valid = false ∨ natField b 8 3 < s.age := by
  rw [Bool.eq_false_iff, ne_eq, StreamBuffer.fresh_iff, not_and_or, Bool.not_eq_true, Nat.not_le]

/-- STREAM_STALE: a stream is called for and a side's buffer is not fresh (R6). -/
theorem streamStaleAt_iff (b : BankCopy) (mode : BeamMode) (fn : LightFn) (src : PatternSource) (ss : Sided StreamBuffer) :
    streamStaleAt b mode fn src ss = true
      ↔ mode = .normal ∧ fn = .adaptive ∧ src = .streamed
        ∧ ∃ d, (ss.get d).valid = false ∨ natField b 8 3 < (ss.get d).age := by
  have hsides : (∃ d, (ss.get d).valid = false ∨ natField b 8 3 < (ss.get d).age)
      ↔ ss.left.fresh b = false ∨ ss.right.fresh b = false := by
    simp only [StreamBuffer.not_fresh_iff]
    constructor
    · rintro ⟨d, h⟩
      cases d
      · exact .inl h
      · exact .inr h
    · rintro (h | h)
      · exact ⟨.left, h⟩
      · exact ⟨.right, h⟩
  rw [hsides, streamStaleAt, Bool.and_eq_true, wantsStream_iff, Bool.not_eq_true', Bool.and_eq_false_iff]
  tauto

/-! ### Test program (R120, R121) -/

/-- A side's test pattern, position by position (R120). -/
theorem testPatternOf_get {u : Supervisor} {p : TestProgram} {pat : TestPattern} (hp : u.program = some p)
    (hc : u.current = some pat) (b : BankCopy) (d : Side) {n : Nat} (hn : n < 128) :
    (testPatternOf b u d)[n]? = some (testLevel b d p pat u.walk n) := by
  simp [testPatternOf, hp, hc, hn]

/-- The value of position `n`: unused positions 0, the others by the pattern, inverted or not (R120). -/
theorem testLevel_eq (b : BankCopy) (d : Side) (p : TestProgram) (pat : TestPattern) (walk n : Nat) :
    testLevel b d p pat walk n
      = if segmentCount b d ≤ n then 0
        else if p.invert = true then 1023 - testValue b d p pat walk (n / colCount b d) (n % colCount b d)
        else testValue b d p pat walk (n / colCount b d) (n % colCount b d) := by
  by_cases h : segmentCount b d ≤ n
  · simp [testLevel, h, Nat.not_lt.2 h]
  · simp [testLevel, h, Nat.lt_of_not_le h]

/-- The dwell count and advance of a running program: the program moves on at the end of a dwell (R121). -/
theorem Supervisor.advance_eq {u : Supervisor} {p : TestProgram} {pat : TestPattern} (hp : u.program = some p)
    (hc : u.current = some pat) (b : BankCopy) :
    u.advance b
      = { u with
          dwell := if u.dwell + 1 = p.dwellFrames then 0 else u.dwell + 1
          walk := if u.dwell + 1 ≠ p.dwellFrames then u.walk else (moveOn b p pat u.walk).2
          current := if u.dwell + 1 ≠ p.dwellFrames then some pat else some (moveOn b p pat u.walk).1 } := by
  by_cases h : u.dwell + 1 = p.dwellFrames <;> simp [Supervisor.advance, hp, hc, h]

/-- The program's advance leaves the mode (R121). -/
theorem Supervisor.advance_mode (b : BankCopy) (u : Supervisor) : (u.advance b).mode = u.mode := by
  simp only [Supervisor.advance]
  split
  · split_ifs <;> rfl
  · rfl

theorem State.frameDecisions_mode (s : State) : s.frameDecisions.sup.mode = s.sup.mode := by
  simp only [State.frameDecisions]
  split_ifs
  · exact Supervisor.advance_mode _ _
  · rfl

theorem TestPattern.walks_eq (pat : TestPattern) : pat.walks = decide (pat = .columnWalk ∨ pat = .rowWalk) := by
  cases pat <;> rfl

/-- The sweep length of a walk: its side of the larger lamp (R121). -/
theorem sweepLength_of_walks {pat : TestPattern} (h : pat.walks = true) (b : BankCopy) :
    sweepLength b pat
      = if pat = .columnWalk then max (colCount b .left) (colCount b .right)
        else max (rowCount b .left) (rowCount b .right) := by
  cases pat with
  | columnWalk => rfl
  | rowWalk => rfl
  | solid => exact absurd h (by decide)
  | checker => exact absurd h (by decide)
  | stored => exact absurd h (by decide)

/-- The walk counter after a dwell (R121). -/
theorem moveOn_walk {b : BankCopy} {pat : TestPattern} {sweep : Nat} (h : pat.walks = true → sweepLength b pat = sweep)
    (p : TestProgram) (walk : Nat) :
    (moveOn b p pat walk).2
      = if pat.walks = true then (if walk + 1 < sweep then walk + 1 else 0)
        else if p.autoAdvance = true then 0 else walk := by
  by_cases hw : pat.walks = true
  · simp only [moveOn, hw, if_true, h hw]
    split_ifs <;> rfl
  · simp only [moveOn, if_neg hw]

/-- The pattern after a dwell (R121). -/
theorem moveOn_pattern {b : BankCopy} {pat : TestPattern} {sweep : Nat} (h : pat.walks = true → sweepLength b pat = sweep)
    (p : TestProgram) (walk : Nat) :
    (moveOn b p pat walk).1
      = if pat.walks = true ∧ walk + 1 < sweep then pat
        else if p.autoAdvance = true then nextPattern p.enabled pat else pat := by
  by_cases hw : pat.walks = true
  · simp only [moveOn, hw, if_true, h hw, true_and, apply_ite Prod.fst]
  · simp only [moveOn, hw, if_false, false_and, Bool.false_eq_true]

/-! ### The event of the timer -/

@[simp] theorem Timebase.syncFrame_msClock (old new : BankCopy) (t : Timebase) :
    (t.syncFrame old new).msClock = t.msClock := by
  simp only [Timebase.syncFrame]
  split <;> rfl

@[simp] theorem Timebase.syncFrame_frameCounter (old new : BankCopy) (t : Timebase) :
    (t.syncFrame old new).frameCounter = t.frameCounter := by
  simp only [Timebase.syncFrame]
  split <;> rfl

/-- Without a commit or a composition in flight, the stages before the decisions are the Timebase's and the flags'. -/
theorem State.atDecisions_quiet {s : State} (hc : s.bank.commitPending = false) (hf : s.composer.inFlight = none)
    (cause : FrameCause) :
    s.atDecisions cause
      = { (s.beginEvent cause).raise (Flag.syncMissing.maskIf (cause == .flywheel)) with
          time := (s.beginEvent cause).time.syncFrame s.bank.active s.bank.active } := by
  have hcommit : (s.beginEvent cause).commitAtEvent = s.beginEvent cause := by
    have hp : (s.beginEvent cause).bank.commitPending = false := hc
    simp [State.commitAtEvent, hp]
  simp only [State.atDecisions, State.completeComposition_none hf, hcommit]
  rfl

theorem State.admitStatusNow_ports (s : State) : s.admitStatusNow.ports = s.ports := by
  rw [State.admitStatusNow]
  split_ifs <;> rfl

theorem State.admitReportNow_ports (s : State) : s.admitReportNow.ports = s.ports := by
  rw [State.admitReportNow]
  split_ifs <;> rfl

theorem State.periodicStatus_ports (s : State) : s.periodicStatus.ports = s.ports := by
  rw [State.periodicStatus]
  split_ifs <;> rfl

/-- Under the claim law the STATUS frames of an event leave both ports: no PASS_RESULT waits beside a free slot (R161). -/
theorem State.statusAtEvent_ports {s : State} (h : s.claimLaw = true) (requested : Bool) :
    (s.statusAtEvent requested).ports = s.ports := by
  let t : State := { s with mgmt := { s.mgmt with reportClaim := s.mgmt.reportClaim || requested } }
  have hports : (s.statusAtEvent requested).ports = t.admitClaims.ports := State.periodicStatus_ports _
  rw [hports]
  by_cases hr : s.mgmt.hasRoom = true
  · have hw : s.claimWaits = false := by simpa [State.claimLaw, hr] using h
    have hpass : ∀ d, t.admitPass d = t := fun d => State.admitPass_none (State.offer_none_of hw d)
    simp only [State.admitClaims, hpass, State.admitReportNow_ports, State.admitStatusNow_ports]
    rfl
  · have hfull : t.mgmt.hasRoom = false := Bool.eq_false_iff.2 hr
    rw [State.admitClaims_full hfull]

/-- The state in which the decisions of an expiry are made, without a commit or a composition in flight: time has passed, and
no block but the Timebase and the Management Unit has changed. -/
theorem State.timerExpiry_quiet {s : State} (hc : s.bank.commitPending = false) (hf : s.composer.inFlight = none) :
    ∃ (u : State) (requested : Bool), s.timerExpiry = u.frameDecisions.statusAtEvent requested
      ∧ u.sup = { s.sup with lowreqHeld := s.sup.lowreqHeld.map (· + s.time.ticksToExpiry) }
      ∧ u.time.msClock = s.time.msClock ∧ u.time.frameCounter = s.time.frameCounter + 1#16
      ∧ u.link = s.link ∧ u.motion = s.motion ∧ u.bend = s.bend ∧ u.table = s.table ∧ u.composer = s.composer
      ∧ u.segments = s.segments ∧ u.ports = s.ports ∧ u.bank = s.bank ∧ u.claimLaw = s.claimLaw := by
  let e : State := s.elapse s.time.ticksToExpiry
  refine ⟨e.atDecisions (expiryCause s.bank.active), _, State.outputFrameEvent_eq e _, ?_⟩
  rw [State.atDecisions_quiet (s := e) hc hf]
  exact ⟨rfl, by rw [Timebase.syncFrame_msClock]; rfl, by rw [Timebase.syncFrame_frameCounter]; rfl,
    rfl, rfl, rfl, rfl, rfl, rfl, rfl, rfl, rfl⟩

/-- Settles O32: the decisions block by block, in the state that the Timebase's part of the event leaves. -/
theorem eventDecisions : Obligations.EventDecisions := by
  intro s hr hc hf hl stale fn builds held
  obtain ⟨u, requested, ht, hsup, hclock, hnumber, hlink, hmotion, hbend, htable, hcomposer, hsegments, hports, hbank,
    hclaim⟩ := State.timerExpiry_quiet hc hf
  have hmode : u.sup.mode = s.sup.mode := by rw [hsup]
  have hstale : u.staleAtEvent = stale := by
    simp only [State.staleAtEvent, sceneStaleAt, hsup, hclock, htable, hbank]
    rfl
  have hfn : u.functionAtEvent = fn := by
    simp only [State.functionAtEvent, hmode, hmotion, hstale, fn]
    cases s.motion.requested <;> rfl
  have hwindows : ∀ d, (windowsAt u.bank.active u.time.msClock u.sup.mode u.functionAtEvent u.table.tracks).get d
      = if builds = true then buildWindows s.bank.active s.time.msClock d s.table.tracks else [] := by
    intro d
    rw [windowsAt_get, hbank, hclock, hmode, hfn, htable]
    simp only [builds, decide_eq_true_eq]
  obtain ⟨-, -, htlink, -, htbend, httable, htwindows, htcomposer, htsegments, htsup, -, htbank, -⟩ :=
    (u.frameDecisions.statusAtEvent_admits requested).frame
  have htports : (u.frameDecisions.statusAtEvent requested).ports = u.frameDecisions.ports :=
    State.statusAtEvent_ports (by rw [← hl, ← hclaim]; rfl) requested
  refine ⟨s.timerExpiry, u.inputsAtEvent, by simp only [exec, execFrameTimerExpiry, State.running_normal hr], ?_⟩
  rw [ht, htlink, htbend, httable, htwindows, htcomposer, htsegments, htsup, htbank, htports]
  refine ⟨rfl, hstale, ?_, ?_, fun d => ?_, hwindows, fun hb d => ?_, fun hm => ?_, fun hm => ?_, ?_, fun hm => ?_,
    fun prog cur hm hp hcur => ?_, ?_⟩
  · rw [State.frameDecisions_mode, hmode]
  · simp only [State.frameDecisions, htable]
    rfl
  · simp only [State.frameDecisions, hcomposer, Sided.get_of]
    rfl
  · intro field signed ofClass casting h parallax dx far mx my edges kept sweeps
    have hcasts : casts s.bank.active = casting := funext fun e => casts_eq_decide _ e
    have hedges : (fun e => clip s.bank.active d (candidate s.bank.active s.time.msClock d e)) = edges := by
      funext e
      simp only [clip, candidate, sideMargin_eq, heightMargin, distanceMargin_eq, spanLeft, spanRight, colCount, colWidth,
        lampOx, lampOy, geometryId_eq]
      rfl
    have hcands : candidates s.bank.active s.time.msClock d s.table.tracks = kept := by
      rw [candidates, hcasts, hedges]
      rfl
    have hsweeps : sweepStep (minGap s.bank.active) = sweeps := by
      funext ws w
      cases ws <;> rfl
    refine ⟨sortWindows kept, sortWindows_perm kept, ?_, fun v w => sortWindows_stable, ?_⟩
    · exact (sortWindows_sorted kept).imp fun {v w} => (before_iff v w).1
    · rw [← hcands, ← hsweeps, ← buildWindows_eq]
      exact (hwindows d).trans (if_pos hb)
  · simp only [State.frameDecisions, hbend, hmode, BendUnit.frame_kept hm]
  · simp only [State.frameDecisions, hbend, hmode, hmotion, hbank, BendUnit.frame_pass hm, BendUnit.pass, Sided.get_of,
      bendInput_lost, implies_true, and_self]
  · simp only [State.frameDecisions, streamStaleAt_iff, hmode, hfn, hmotion, hcomposer, hbank]
  · simp only [State.frameDecisions, if_neg hm, hstale, hsup]
    rfl
  · intro next sweep walks
    have hup : u.sup.program = some prog := by rw [hsup]; exact hp
    have huc : u.sup.current = some cur := by rw [hsup]; exact hcur
    refine ⟨fun d n hn => ?_, ?_⟩
    · simp only [State.inputsAtEvent, State.testAtEvent, hmode, hm, if_true, Sided.get_of, hbank,
        testPatternOf_get hup huc _ _ hn, testLevel_eq]
      have hstored : n / colCount s.bank.active d * colCount s.bank.active d + n % colCount s.bank.active d = n :=
        Nat.div_add_mod' n _
      cases cur <;> simp only [testValue, patternLevel_eq, hstored, hsup]
    · have hsweep : cur.walks = true → sweepLength s.bank.active cur = sweep := fun hw => sweepLength_of_walks hw _
      simp only [State.frameDecisions, hmode, if_pos hm, hstale, hbank, Supervisor.advance_eq hup huc s.bank.active]
      simp only [hsup, moveOn_walk hsweep, moveOn_pattern hsweep, TestPattern.walks_eq, ite_or, apply_ite some,
        next]
      rfl
  · refine ⟨congrArg TableBank.active hbank, hmode, hfn, congrArg Motion.lowIndex hmotion,
      congrArg Motion.adaptiveIndex hmotion, congrArg Motion.source hmotion, rfl, rfl,
      congrArg TrackTable.crowdedHold htable, congrArg Composer.streams hcomposer, fun d => ?_, hnumber, hsegments, hports,
      hlink, hbank⟩
    simp only [State.inputsAtEvent, Sided.get_of, hports]

end Sys2Proof.Machine
end

section
/-! SUPPORT. Predicates that every step keeps: a predicate kept by what a queue of commands, a MANAGE record and RESET do
around an effect is kept where the effect keeps it. -/

namespace Sys2Proof.Machine

open Sys2Proof

/-- An effect that keeps a predicate keeps it under RESET too, where nothing happens. -/
theorem State.running_keeps {P : State → Prop} {f : State → State} {s : State} (h : P s) (hf : P (f s)) :
    P (s.running f) := by
  rw [State.running]
  split_ifs
  · exact h
  · exact hf

/-- A MANAGE record keeps a predicate that its command keeps, and that does not look at the opening and the end of a frame
(R158 to R160). -/
theorem State.manageRecord_keeps {P : State → Prop} {run : List Byte → State → CommandEffect}
    (hopen : ∀ s tag, P s → P (s.openFrame tag)) (hclose : ∀ s f, P s → P (s.closeFrame f))
    (hnote : ∀ (s : State) (f : ManageFrame), P s → P { s with mgmt := { s.mgmt with manage := some f } })
    (hrun : ∀ params s, P s → P (run params s).state) {s : State} (h : P s) (code : Byte) (r : ManageRecord) :
    P (s.manageRecord code r run) := by
  have ho := hopen s r.tag h
  rw [State.manageRecord]
  dsimp only
  split
  · exact ho
  · rename_i f _
    have he : P (if f.discarded then (s.openFrame r.tag).answer .notRun
        else (s.openFrame r.tag).runCommand f r run).state := by
      split_ifs
      · exact ho
      · rw [State.runCommand]
        split_ifs
        · exact ho
        · exact hrun _ _ ho
    generalize (if f.discarded then (s.openFrame r.tag).answer .notRun
        else (s.openFrame r.tag).runCommand f r run) = e at he ⊢
    split_ifs
    · exact hclose _ _ he
    · exact hnote _ _ he

/-- A step keeps a predicate that every command keeps, and that looks neither at the queue of commands nor at ticks. -/
theorem step_keeps {P : State → Prop} (hqueue : ∀ s q, P s → P (s.withQueue q)) (hticks : ∀ s n, P s → P (s.elapse n))
    (hexec : ∀ i s, P s → ∃ t, exec i s = .next t ∧ P t) {s t : State} (h : P s) (hst : step s = .next t) : P t := by
  have hnext : ∀ i u, P u → exec i u = .next t → P t := by
    intro i u hu hx
    obtain ⟨v, hv, hPv⟩ := hexec i u hu
    rw [hv] at hx
    cases hx
    exact hPv
  rw [step] at hst
  split at hst
  · rw [State.idle] at hst
    split_ifs at hst
    · cases hst
      exact h
    · split at hst
      · exact hnext _ _ h hst
      · cases hst
        exact hticks _ _ h
  · exact hnext _ _ (hqueue _ _ h) hst

end Sys2Proof.Machine
end

section
/-! SUPPORT. The chip records of a port (R93): which operations leave them, and that four records with counts up to 4
stay so. -/

namespace Sys2Proof.Machine

open Sys2Proof

/-! ### Operations that leave the records -/

theorem Port.nextItem_chips {b : BankCopy} {p q : Port} (h : p.nextItem b = some q) : q.chips = p.chips := by
  obtain ⟨f, it, -, -, rfl⟩ := Port.nextItem_some h
  rfl

theorem Port.performWaiting_chips (b : BankCopy) (d : Side) (p : Port) : (p.performWaiting b d).chips = p.chips := by
  rw [Port.performWaiting]
  split
  · rw [Port.perform]
    split <;> rfl
  · rfl

theorem Port.itemEnded_chips (b : BankCopy) (d : Side) (test : Bool) (it : TransferItem) (p : Port) :
    (p.itemEnded b d test it).chips = p.chips := by
  rw [Port.itemEnded]
  dsimp only
  split_ifs
  · exact Port.performWaiting_chips _ _ _
  · exact Port.performWaiting_chips _ _ _
  · exact Port.settle_chips _ _ _ _
  · split
    · rename_i q hq
      exact Port.nextItem_chips hq
    · exact Port.settle_chips _ _ _ _

theorem Port.passEnded_chips (b : BankCopy) (d : Side) (test : Bool) (result : Option Word) (p : Port) :
    (p.passEnded b d test result).chips = p.chips := by
  rw [Port.passEnded]
  dsimp only
  split
  · split
    · rename_i q hq
      exact (Port.nextItem_chips hq).trans rfl
    · split <;> exact Port.settle_chips _ _ _ _
  · rfl

theorem Port.queuePass_chips (b : BankCopy) (d : Side) (r : PassRequest) (p : Port) :
    (p.queuePass b d r).chips = p.chips := by
  rw [Port.queuePass]
  split_ifs
  · exact Port.performWaiting_chips _ _ _
  · rfl

theorem Port.halt_chips (p : Port) : p.halt.chips = p.chips := by
  rw [Port.halt]
  split <;> rfl

/-- Entering claims leave the records of both sides (R161). -/
theorem State.Admits.chips {s t : State} (h : s.Admits t) (d : Side) :
    (t.ports.get d).chips = (s.ports.get d).chips := by
  obtain ⟨added, status, report, ports, rfl, -, -, hports, -⟩ := h
  change (ports.get d).chips = _
  rcases hports d with hd | ⟨q, result, -, hd⟩ <;> rw [hd]

/-- A mode decision leaves the records of both sides (R111, R106). -/
theorem State.decideMode_chips (s : State) (d : Side) : (s.decideMode.ports.get d).chips = (s.ports.get d).chips := by
  rw [State.decideMode, State.enterMode]
  dsimp only
  split_ifs
  · rw [Sided.get_of]
    exact (Port.resume_keeps _ _).1
  · rfl

/-! ### The law of the records (R93) -/

theorem Port.chipsLaw_iff (p : Port) : p.chipsLaw = true ↔ p.chips.length = 4 ∧ ∀ r ∈ p.chips, r.failed ≤ 4 := by
  simp [Port.chipsLaw]

theorem Port.chipsLaw_of_chips {p q : Port} (hq : q.chips = p.chips) (h : p.chipsLaw = true) : q.chipsLaw = true := by
  rw [Port.chipsLaw_iff] at h ⊢
  rwa [hq]

/-- A change of one alias's record keeps the law where the new record's count is at most 4 (R96). -/
theorem Port.chipsLaw_of_change {p q : Port} {it : TransferItem} {f : ChipRecord → ChipRecord}
    (hf : ∀ r, (f r).failed ≤ 4) (hq : q.chips = changeChip p.chips it f) (h : p.chipsLaw = true) : q.chipsLaw = true := by
  rw [Port.chipsLaw_iff] at h ⊢
  obtain ⟨hlen, hall⟩ := h
  rw [hq, changeChip]
  refine ⟨by rw [List.length_modify, hlen], fun r hr => ?_⟩
  obtain ⟨i, hi⟩ := List.mem_iff_getElem?.1 hr
  rw [List.getElem?_modify, Option.map_eq_map, Option.map_eq_some_iff] at hi
  obtain ⟨r0, hr0, rfl⟩ := hi
  have h0 : r0.failed ≤ 4 := hall r0 (List.mem_of_getElem? hr0)
  split_ifs
  · exact hf r0
  · exact h0
  · exact h0

theorem ChipRecord.skipped_failed (r : ChipRecord) : r.skipped.failed ≤ 4 := min_le_left _ _

theorem ChipRecord.answered_failed (a : SegmentAck) (r : ChipRecord) : (r.answered a).failed ≤ 4 := Nat.zero_le _

/-- A failed attempt keeps the law: a skipped item's count goes up to 4 at most (R95, R96). -/
theorem Port.attemptFailed_chipsLaw (b : BankCopy) (d : Side) (test : Bool) {p : Port} (h : p.chipsLaw = true) :
    (p.attemptFailed b d test).port.chipsLaw = true := by
  rw [Port.attemptFailed]
  split
  · exact h
  · split_ifs
    · exact h
    · exact Port.chipsLaw_of_change ChipRecord.skipped_failed (Port.itemEnded_chips _ _ _ _ _) h
  · split_ifs
    · exact h
    · exact Port.chipsLaw_of_chips (Port.passEnded_chips _ _ _ _ _) h

theorem Port.segmentAck_chipsLaw (b : BankCopy) (test : Bool) (a : SegmentAck) {p : Port} (h : p.chipsLaw = true) :
    (p.segmentAck b test a).port.chipsLaw = true := by
  rw [Port.segmentAck]
  split_ifs
  · exact h
  · split
    · split_ifs
      · exact Port.chipsLaw_of_change (ChipRecord.answered_failed a) (Port.itemEnded_chips _ _ _ _ _) h
      · exact Port.attemptFailed_chipsLaw _ _ _ h
    · exact Port.attemptFailed_chipsLaw _ _ _ h

theorem Port.registerAck_chipsLaw (b : BankCopy) (test : Bool) (a : RegisterAck) {p : Port} (h : p.chipsLaw = true) :
    (p.registerAck b test a).port.chipsLaw = true := by
  rw [Port.registerAck]
  split_ifs
  · exact h
  · split
    · split_ifs
      · exact Port.chipsLaw_of_chips (Port.passEnded_chips _ _ _ _ _) h
      · exact Port.attemptFailed_chipsLaw _ _ _ h
    · exact Port.attemptFailed_chipsLaw _ _ _ h

theorem Port.badAnswer_chipsLaw (b : BankCopy) (test : Bool) (a : BadAnswer) {p : Port} (h : p.chipsLaw = true) :
    (p.badAnswer b test a).port.chipsLaw = true := by
  rw [Port.badAnswer]
  split_ifs
  · exact h
  · exact Port.attemptFailed_chipsLaw _ _ _ h

/-- A record compared with a new driver map keeps its count or starts at 0 (R107). -/
theorem ChipRecord.remap_failed (old new : BankCopy) (d : Side) (chip : Nat) {r : ChipRecord} (h : r.failed ≤ 4) :
    (r.remap old new d chip).failed ≤ 4 := by
  rw [ChipRecord.remap]
  split <;> split_ifs
  · exact h
  · exact Nat.zero_le _
  · exact h
  · exact Nat.zero_le _

theorem Port.commit_chipsLaw (old new : BankCopy) (d : Side) {p : Port} (h : p.chipsLaw = true) :
    (p.commit old new d).chipsLaw = true := by
  rw [Port.chipsLaw_iff] at h ⊢
  obtain ⟨hlen, hall⟩ := h
  simp only [Port.commit, remapChips]
  refine ⟨by rw [List.length_mapIdx, hlen], fun r hr => ?_⟩
  obtain ⟨i, hi, rfl⟩ := List.mem_mapIdx.1 hr
  exact ChipRecord.remap_failed _ _ _ _ (hall _ (List.getElem_mem hi))

/-- The records a reset gives (R93). -/
theorem Port.atReset_chipsLaw (b : BankCopy) (d : Side) : (Port.atReset (freshChips b d)).chipsLaw = true := by
  rw [Port.chipsLaw_iff]
  simp [Port.atReset, freshChips, ChipRecord.fresh]

end Sys2Proof.Machine
end

section
/-! SUPPORT. The ranges of counts, values and lengths (R7, R24, R51, R80, R93, R123, R137): every effect keeps them. -/

namespace Sys2Proof.Machine

open Sys2Proof

/-! ### The law component by component -/

theorem Side.forall_iff {p : Side → Prop} : (∀ d, p d) ↔ p .left ∧ p .right :=
  ⟨fun h => ⟨h .left, h .right⟩, fun h d => by cases d; exacts [h.1, h.2]⟩

theorem State.rangeLaw_iff (s : State) : s.rangeLaw = true ↔
    s.rx.errorCount ≤ 65535 ∧ s.motion.inRange = true ∧ s.table.reportCount ≤ 255 ∧ s.time.flywheel ≤ 8
      ∧ (∀ d, (s.ports.get d).chipsLaw = true) ∧ (∀ d, (s.composer.streams.get d).age ≤ 255)
      ∧ (∀ d, (s.composer.streams.get d).levels.length = 128) ∧ ∀ d, (s.segments.get d).length = 128 := by
  simp only [State.rangeLaw, Side.forall_iff, Sided.get, Bool.and_eq_true, decide_eq_true_eq, and_assoc]

/-- An update keeps the law where it keeps each component's range; a component left as it is needs no argument. -/
theorem State.rangeLaw_of {s t : State} (h : s.rangeLaw = true)
    (hrx : s.rx.errorCount ≤ 65535 → t.rx.errorCount ≤ 65535 := by exact fun h => h)
    (hmotion : s.motion.inRange = true → t.motion.inRange = true := by exact fun h => h)
    (hcount : s.table.reportCount ≤ 255 → t.table.reportCount ≤ 255 := by exact fun h => h)
    (hflywheel : s.time.flywheel ≤ 8 → t.time.flywheel ≤ 8 := by exact fun h => h)
    (hports : ∀ d, (s.ports.get d).chipsLaw = true → (t.ports.get d).chipsLaw = true := by exact fun _ h => h)
    (hages : ∀ d, (s.composer.streams.get d).age ≤ 255 → (t.composer.streams.get d).age ≤ 255 := by exact fun _ h => h)
    (hlevels : ∀ d, (s.composer.streams.get d).levels.length = 128 → (t.composer.streams.get d).levels.length = 128 := by
      exact fun _ h => h)
    (hsegments : ∀ d, (s.segments.get d).length = 128 → (t.segments.get d).length = 128 := by exact fun _ h => h) :
    t.rangeLaw = true := by
  rw [State.rangeLaw_iff] at h ⊢
  obtain ⟨h1, h2, h3, h4, h5, h6, h7, h8⟩ := h
  exact ⟨hrx h1, hmotion h2, hcount h3, hflywheel h4, fun d => hports d (h5 d), fun d => hages d (h6 d),
    fun d => hlevels d (h7 d), fun d => hsegments d (h8 d)⟩

/-- An update of one side's port keeps the law where it keeps the port's. -/
theorem State.rangeLaw_setPort {s : State} (h : s.rangeLaw = true) {d : Side} {p : Port}
    (hp : (s.ports.get d).chipsLaw = true → p.chipsLaw = true) :
    ({ s with ports := s.ports.set d p } : State).rangeLaw = true := by
  refine State.rangeLaw_of h (hports := fun e he => ?_)
  by_cases hed : e = d
  · subst hed
    rw [Sided.get_set_same]
    exact hp he
  · rwa [Sided.get_set_of_ne _ hed]

/-! ### Shared effects -/

theorem State.raise_rangeLaw {s : State} (h : s.rangeLaw = true) (m : Word) : (s.raise m).rangeLaw = true :=
  State.rangeLaw_of h

theorem State.elapse_rangeLaw {s : State} (h : s.rangeLaw = true) (n : Nat) : (s.elapse n).rangeLaw = true :=
  State.rangeLaw_of h

theorem State.Admits.rangeLaw {s t : State} (ht : s.Admits t) (h : s.rangeLaw = true) : t.rangeLaw = true := by
  have hchips := ht.chips
  obtain ⟨added, status, report, ports, rfl, -⟩ := ht
  exact State.rangeLaw_of h (hports := fun d => Port.chipsLaw_of_chips (hchips d))

theorem State.decideMode_rangeLaw {s : State} (h : s.rangeLaw = true) : s.decideMode.rangeLaw = true :=
  State.rangeLaw_of h (hports := fun d => Port.chipsLaw_of_chips (s.decideMode_chips d))

theorem State.withLink_rangeLaw {s : State} (h : s.rangeLaw = true) (e : LinkEffect) :
    (s.withLink e).rangeLaw = true := by
  have hraised : (({ s with link := e.link } : State).raise e.mask).rangeLaw = true := State.rangeLaw_of h
  rcases s.withLink_cases e with ⟨-, hl⟩ | ⟨-, hl⟩ <;> rw [hl]
  · exact hraised
  · exact State.decideMode_rangeLaw hraised

theorem State.endTest_rangeLaw {s : State} (h : s.rangeLaw = true) (flagged : Bool) :
    (s.endTest flagged).rangeLaw = true :=
  State.decideMode_rangeLaw (State.rangeLaw_of h)

/-- A reset gives every count and length its reset value, whatever stood before. -/
theorem resetUnder_rangeLaw (bank : TableBank) (line : Bool) (waiting : List Instr) :
    (resetUnder bank line waiting).rangeLaw = true := by
  rw [State.rangeLaw_iff]
  refine ⟨Nat.zero_le _, rfl, Nat.zero_le _, Nat.zero_le _, fun d => ?_, fun d => ?_, fun d => ?_, fun d => ?_⟩
  · rw [resetUnder, Sided.get_of]
    exact Port.atReset_chipsLaw _ _
  · cases d <;> exact le_rfl
  · cases d <;> rfl
  · cases d <;> rfl

/-! ### The downstream link -/

theorem State.frameDiscarded_rangeLaw {s : State} (h : s.rangeLaw = true) (restarted : Bool) :
    (s.frameDiscarded restarted).rangeLaw = true :=
  State.rangeLaw_of h (hrx := fun _ => min_le_left _ _)

theorem State.startReceived_rangeLaw {s : State} (h : s.rangeLaw = true) : s.startReceived.rangeLaw = true := by
  rw [State.startReceived]
  split_ifs
  · exact State.frameDiscarded_rangeLaw h _
  · exact State.rangeLaw_of h

theorem State.frameFails_rangeLaw {s : State} (h : s.rangeLaw = true) (cause : FrameFault) :
    (s.frameFails cause).rangeLaw = true := by
  cases cause with
  | startInFrame => exact State.frameDiscarded_rangeLaw h _
  | overflow => exact State.frameDiscarded_rangeLaw h _
  | failedCheck data =>
    simp only [State.frameFails]
    split_ifs
    · exact State.frameDiscarded_rangeLaw h _
    · exact h

theorem State.squelched_rangeLaw {s : State} (h : s.rangeLaw = true) : s.squelched.rangeLaw = true := by
  rw [State.squelched]
  split_ifs
  · exact State.withLink_rangeLaw (State.frameDiscarded_rangeLaw h _) _
  · exact State.withLink_rangeLaw h _

theorem Motion.inRange_iff (m : Motion) : m.inRange = true ↔
    m.speed ≤ 2000 ∧ m.yaw.natAbs ≤ 12000 ∧ m.wheel.natAbs ≤ 4500 ∧ m.lowIndex ≤ 15 ∧ m.adaptiveIndex ≤ 15 := by
  simp only [Motion.inRange, Bool.and_eq_true, decide_eq_true_eq, and_assoc]

/-- A MOTION payload is clamped into the ranges of R24 (R25). -/
theorem motionOf_inRange (m : MotionPayload) : (motionOf m).inRange = true := by
  have hindices := m.indices.isLt
  rw [Motion.inRange_iff]
  simp only [motionOf, clampInt]
  omega

theorem State.motionArrives_rangeLaw {s : State} (h : s.rangeLaw = true) (m : MotionPayload) :
    (s.motionArrives m).rangeLaw = true := by
  rw [State.motionArrives, State.testSpeedCheck]
  have hlink := State.withLink_rangeLaw (s := { s with
    rx := s.rx.accepted (frameBytes classMotion (motionBytes m)), motion := motionOf m })
    (State.rangeLaw_of h (hmotion := fun _ => motionOf_inRange m))
  split_ifs
  · exact State.endTest_rangeLaw (hlink _) _
  · exact hlink _

/-- Reports keep the report count in its range (R51). -/
theorem takeReports_reportCount (b : BankCopy) (now : MsTime) (t : TrackTable) (rs : List SceneReport)
    (h : t.reportCount ≤ 255) : (takeReports b now t rs).1.reportCount ≤ 255 := by
  induction rs generalizing t with
  | nil => exact h
  | cons raw rs ih =>
    obtain ⟨-, -, -, hcount, -⟩ := takeReport_frame b now t raw
    exact ih _ (hcount.le.trans (min_le_left _ _))

theorem takeScene_reportCount (b : BankCopy) (now : MsTime) (p : ScenePayload) (t : TrackTable)
    (h : t.reportCount ≤ 255) : (takeScene b now p t).table.reportCount ≤ 255 := by
  have hclose : ∀ u : TrackTable, (u.close b now).reportCount = u.reportCount := fun _ => rfl
  have hopened : ∀ u : TrackTable, u.reportCount ≤ 255 →
      (if u.isOpen then u else u.openScene p.sceneId.toNat).reportCount ≤ 255 := by
    intro u hu
    split
    · exact hu
    · exact Nat.zero_le _
  rw [takeScene]
  dsimp only
  rw [apply_ite TrackTable.reportCount, hclose, ite_self]
  exact takeReports_reportCount _ _ _ _ (hopened _ (by split <;> exact h))

theorem State.sceneArrives_rangeLaw {s : State} (h : s.rangeLaw = true) (p : ScenePayload) :
    (s.sceneArrives p).rangeLaw = true :=
  State.rangeLaw_of h (hcount := takeScene_reportCount _ _ _ _)

theorem State.patternFrame_rangeLaw {s : State} (h : s.rangeLaw = true) (p : PatternPayload) :
    (s.patternFrame p).rangeLaw = true := by
  by_cases hf : p.framed = true
  · obtain ⟨⟨d, hd⟩, hlen⟩ := (patternFramed_iff p).1 hf
    rw [State.patternFrame_of_framed hd hlen, State.patternArrives]
    refine State.rangeLaw_of h (hages := fun e he => ?_) (hlevels := fun e he => ?_)
    all_goals
      by_cases hed : e = d
      · subst hed
        simp [streamOf, hlen]
      · rwa [Sided.get_set_of_ne _ hed]
  · rw [State.patternFrame_of_not_framed (by simpa using hf)]
    exact State.frameDiscarded_rangeLaw h _

theorem State.lowreqTaken_rangeLaw {s : State} (h : s.rangeLaw = true) : s.lowreqTaken.rangeLaw = true := by
  rw [State.lowreqTaken]
  split
  · exact h
  · exact State.decideMode_rangeLaw (State.rangeLaw_of h)

theorem State.lowreqLineTo_rangeLaw {s : State} (h : s.rangeLaw = true) (active : Bool) :
    (s.lowreqLineTo active).rangeLaw = true := by
  rw [State.lowreqLineTo]
  split
  · exact h
  · exact State.rangeLaw_of h

/-! ### The output frame event -/

/-- Records stepped against lists of their length keep their number (R81). -/
theorem stepRecords_length (b : BankCopy) (mode : BeamMode) (ss : List SegmentRecord) (ts : List Nat) (fs : List Bool)
    (ht : ts.length = ss.length) (hf : fs.length = ss.length) : (stepRecords b mode ss ts fs).length = ss.length := by
  induction ss generalizing ts fs with
  | nil => simp [stepRecords]
  | cons s ss ih =>
    obtain ⟨t, ts, rfl⟩ := List.exists_cons_of_length_eq_add_one ht
    obtain ⟨f, fs, rfl⟩ := List.exists_cons_of_length_eq_add_one hf
    simp only [List.length_cons, Nat.add_right_cancel_iff] at ht hf
    simp only [stepRecords, List.length_cons, ih ts fs ht hf]

theorem State.steppedSide_length {s : State} {d : Side} (h : (s.segments.get d).length = 128) (x : CompositionInputs) :
    (s.steppedSide x d).length = 128 := by
  rw [State.steppedSide, stepSide, stepRecords_length _ _ _ _ _ (by simp [targetFrame, h]) (by simp [targetFrame, h]), h]

theorem State.completeComposition_rangeLaw {s : State} (h : s.rangeLaw = true) :
    s.completeComposition.rangeLaw = true := by
  cases hf : s.composer.inFlight with
  | none => rwa [State.completeComposition_none hf]
  | some x =>
    rw [State.completeComposition_some hf]
    refine State.raise_rangeLaw (State.rangeLaw_of h (hports := fun d hd => ?_) (hsegments := fun d hd => ?_)) _
    · rw [Sided.get_of]
      exact Port.chipsLaw_of_chips (Port.frameArrives_chips _ _ _) hd
    · rw [Sided.get_of]
      exact State.steppedSide_length hd x

theorem State.commitAtEvent_rangeLaw {s : State} (h : s.rangeLaw = true) : s.commitAtEvent.rangeLaw = true := by
  rcases s.commitAtEvent_cases with ⟨-, hs⟩ | ⟨id, off, -, -, hs⟩ | ⟨-, -, hs⟩ <;> rw [hs]
  · exact h
  · exact State.rangeLaw_of h
  · refine State.withLink_rangeLaw (State.rangeLaw_of h (hports := fun d hd => ?_)) _
    rw [Sided.get_of]
    exact Port.commit_chipsLaw _ _ _ hd

theorem Timebase.frame_flywheel (b : BankCopy) (cause : FrameCause) {t : Timebase} (h : t.flywheel ≤ 8) :
    (t.frame b cause).flywheel ≤ 8 := by
  cases cause with
  | internalExpiry => exact h
  | flywheel => exact min_le_left _ _
  | acceptedEdge => exact Nat.zero_le _

theorem Timebase.syncFrame_flywheel (old new : BankCopy) {t : Timebase} (h : t.flywheel ≤ 8) :
    (t.syncFrame old new).flywheel ≤ 8 := by
  rw [Timebase.syncFrame]
  split
  · exact h
  · exact h
  · exact Nat.zero_le _
  · exact Nat.zero_le _

theorem State.frameDecisions_rangeLaw {s : State} (h : s.rangeLaw = true) : s.frameDecisions.rangeLaw = true := by
  refine State.rangeLaw_of h (hages := fun d _ => ?_) (hlevels := fun d hd => ?_)
  · rw [State.frameDecisions, Sided.get_of]
    exact min_le_left _ _
  · rw [State.frameDecisions, Sided.get_of]
    exact hd

theorem State.atDecisions_rangeLaw {s : State} (h : s.rangeLaw = true) (cause : FrameCause) :
    (s.atDecisions cause).rangeLaw = true := by
  have hbegin : (s.completeComposition.beginEvent cause).rangeLaw = true :=
    State.rangeLaw_of (State.completeComposition_rangeLaw h) (hflywheel := Timebase.frame_flywheel _ _)
  exact State.rangeLaw_of (State.commitAtEvent_rangeLaw hbegin) (hflywheel := Timebase.syncFrame_flywheel _ _)

theorem State.outputFrameEvent_rangeLaw {s : State} (h : s.rangeLaw = true) (cause : FrameCause) :
    (s.outputFrameEvent cause).rangeLaw = true := by
  have hdecisions := State.frameDecisions_rangeLaw (State.atDecisions_rangeLaw h cause)
  rw [State.outputFrameEvent_eq]
  exact (State.statusAtEvent_admits _ _).rangeLaw (State.rangeLaw_of hdecisions)

theorem State.syncEdgeArrives_rangeLaw {s : State} (h : s.rangeLaw = true) (edge : SyncEdge) :
    (s.syncEdgeArrives edge).rangeLaw = true := by
  rw [State.syncEdgeArrives]
  split_ifs
  · exact State.outputFrameEvent_rangeLaw h _
  · exact State.raise_rangeLaw h _
  · exact h

theorem State.strobeEnds_rangeLaw {s : State} (h : s.rangeLaw = true) : s.strobeEnds.rangeLaw = true := by
  rw [State.strobeEnds]
  split_ifs
  · exact State.rangeLaw_of h
  · exact h

/-! ### The lamp buses and the upstream queue -/

theorem State.busEvent_rangeLaw {s : State} (h : s.rangeLaw = true) (d : Side)
    {act : BankCopy → Bool → Port → PortEffect}
    (hact : ∀ b test p, p.chipsLaw = true → (act b test p).port.chipsLaw = true) : (s.busEvent d act).rangeLaw = true :=
  (State.admitClaims_admits _).rangeLaw (State.raise_rangeLaw (State.rangeLaw_setPort h (hact _ _ _)) _)

theorem State.warmResetNow_rangeLaw (s : State) : s.warmResetNow.rangeLaw = true := resetUnder_rangeLaw _ _ _

theorem State.headSent_rangeLaw {s : State} (h : s.rangeLaw = true) : s.headSent.rangeLaw = true := by
  rcases s.headSent_cases with ⟨-, hs⟩ | ⟨f, rest, -, -, hs⟩ | ⟨f, rest, -, -, hs⟩ <;> rw [hs]
  · exact h
  · exact s.warmResetNow_rangeLaw
  · exact (State.admitClaims_admits _).rangeLaw (State.rangeLaw_of h)

theorem State.warmResetDue_rangeLaw {s : State} (h : s.rangeLaw = true) : s.warmResetDue.rangeLaw = true := by
  rw [State.warmResetDue]
  split_ifs
  · exact s.warmResetNow_rangeLaw
  · exact h

/-! ### MANAGE commands -/

theorem State.manageRecord_rangeLaw {run : List Byte → State → CommandEffect}
    (hrun : ∀ params u, u.rangeLaw = true → (run params u).state.rangeLaw = true) {s : State} (h : s.rangeLaw = true)
    (code : Byte) (r : ManageRecord) : (s.manageRecord code r run).rangeLaw = true := by
  refine State.manageRecord_keeps (P := fun u => u.rangeLaw = true) (fun u tag hu => ?_) (fun u f hu => ?_) (fun u f hu => ?_)
    hrun h code r
  · rw [State.openFrame]
    split
    · exact hu
    · exact State.rangeLaw_of hu
  · exact State.rangeLaw_of hu
  · exact State.rangeLaw_of hu

/-- A command without parameters keeps the law where its effect does. -/
theorem withoutParams_rangeLaw {run : State → CommandEffect}
    (hrun : ∀ u, u.rangeLaw = true → (run u).state.rangeLaw = true) (params : List Byte) (s : State)
    (h : s.rangeLaw = true) : (withoutParams run params s).state.rangeLaw = true := by
  rw [withoutParams]
  split
  · exact h
  · exact hrun s h

theorem tableWriteCommand_rangeLaw (params : List Byte) (s : State) (h : s.rangeLaw = true) :
    (tableWriteCommand params s).state.rangeLaw = true := by
  rw [tableWriteCommand]
  split
  · exact h
  · split_ifs
    · exact h
    · exact h
    · exact State.rangeLaw_of h

theorem tableReadCommand_rangeLaw (params : List Byte) (s : State) (h : s.rangeLaw = true) :
    (tableReadCommand params s).state.rangeLaw = true := by
  rw [tableReadCommand]
  split
  · exact h
  · split_ifs <;> exact h

theorem statusNowCommand_rangeLaw (params : List Byte) (s : State) (h : s.rangeLaw = true) :
    (statusNowCommand params s).state.rangeLaw = true := by
  refine withoutParams_rangeLaw (fun u hu => ?_) params s h
  exact (State.admitClaims_admits _).rangeLaw (State.rangeLaw_of hu)

theorem flagClearCommand_rangeLaw (params : List Byte) (s : State) (h : s.rangeLaw = true) :
    (flagClearCommand params s).state.rangeLaw = true := by
  rw [flagClearCommand]
  split
  · exact h
  · exact State.rangeLaw_of h

theorem sceneClearCommand_rangeLaw (params : List Byte) (s : State) (h : s.rangeLaw = true) :
    (sceneClearCommand params s).state.rangeLaw = true :=
  withoutParams_rangeLaw (fun _ hu => State.rangeLaw_of hu (hcount := fun _ => Nat.zero_le _)) params s h

theorem frameAlignCommand_rangeLaw (params : List Byte) (s : State) (h : s.rangeLaw = true) :
    (frameAlignCommand params s).state.rangeLaw = true := by
  rw [frameAlignCommand]
  split
  · exact h
  · split_ifs
    · exact h
    · exact h
    · exact State.rangeLaw_of h

theorem testEnterCommand_rangeLaw (params : List Byte) (s : State) (h : s.rangeLaw = true) :
    (testEnterCommand params s).state.rangeLaw = true := by
  rw [testEnterCommand]
  split
  · exact h
  · split_ifs
    · exact h
    · exact h
    · exact h
    · exact State.decideMode_rangeLaw (State.rangeLaw_of h)

theorem testExitCommand_rangeLaw (params : List Byte) (s : State) (h : s.rangeLaw = true) :
    (testExitCommand params s).state.rangeLaw = true := by
  refine withoutParams_rangeLaw (fun u hu => ?_) params s h
  dsimp only
  split_ifs
  · exact State.endTest_rangeLaw hu _
  · exact hu

theorem portCommand_rangeLaw {act : BankCopy → Port → Port} (hact : ∀ b p, (act b p).chips = p.chips)
    (params : List Byte) (s : State) (h : s.rangeLaw = true) : (portCommand act params s).state.rangeLaw = true := by
  rw [portCommand]
  split
  · exact h
  · split
    · exact h
    · split_ifs
      · exact State.rangeLaw_setPort h (Port.chipsLaw_of_chips (hact _ _))
      · exact h

theorem driverPassCommand_rangeLaw (params : List Byte) (s : State) (h : s.rangeLaw = true) :
    (driverPassCommand params s).state.rangeLaw = true := by
  rw [driverPassCommand]
  split
  · exact h
  · split
    · exact h
    · split_ifs
      · exact h
      · exact h
      · exact h
      · exact State.rangeLaw_setPort h (Port.chipsLaw_of_chips (Port.queuePass_chips _ _ _ _))

/-! ### Every command and every step -/

/-- A command under RESET or not, whose effect keeps the law. -/
theorem State.running_rangeLaw {s : State} (h : s.rangeLaw = true) {f : State → State}
    (hf : s.rangeLaw = true → (f s).rangeLaw = true) : (s.running f).rangeLaw = true :=
  State.running_keeps (P := fun u => u.rangeLaw = true) h (hf h)

/-- Every command has a next state and keeps the law. -/
theorem exec_rangeLaw (i : Instr) (s : State) (h : s.rangeLaw = true) : ∃ t, exec i s = .next t ∧ t.rangeLaw = true := by
  have hmanage : ∀ (run : List Byte → State → CommandEffect) (code : Byte) (r : ManageRecord),
      (∀ params u, u.rangeLaw = true → (run params u).state.rangeLaw = true) →
      (s.running fun u => u.manageRecord code r run).rangeLaw = true :=
    fun run code r hrun => State.running_rangeLaw h fun hs => State.manageRecord_rangeLaw hrun hs code r
  have hbus : ∀ (d : Side) (act : BankCopy → Bool → Port → PortEffect),
      (∀ b test p, p.chipsLaw = true → (act b test p).port.chipsLaw = true) →
      (s.running fun u => u.busEvent d act).rangeLaw = true :=
    fun d act hact => State.running_rangeLaw h fun hs => State.busEvent_rangeLaw hs d hact
  cases i with
  | coldReset => exact ⟨_, rfl, State.rangeLaw_of (resetUnder_rangeLaw TableBank.cold s.sup.lowreqLine s.pending)⟩
  | resetEnds =>
    refine ⟨_, rfl, ?_⟩
    split_ifs
    · exact State.rangeLaw_of h
    · exact h
  | lowreqEdge active => exact ⟨_, rfl, State.lowreqLineTo_rangeLaw h active⟩
  | lowreqLevelChange => exact ⟨_, rfl, State.running_rangeLaw h State.lowreqTaken_rangeLaw⟩
  | lineSquelch => exact ⟨_, rfl, State.running_rangeLaw h State.squelched_rangeLaw⟩
  | linkFrameError cause => exact ⟨_, rfl, State.running_rangeLaw h fun hs => State.frameFails_rangeLaw hs cause⟩
  | startSymbol => exact ⟨_, rfl, State.running_rangeLaw h State.startReceived_rangeLaw⟩
  | motionFrame m => exact ⟨_, rfl, State.running_rangeLaw h fun hs => State.motionArrives_rangeLaw hs m⟩
  | sceneFrame p =>
    refine ⟨_, rfl, State.running_rangeLaw h fun hs => ?_⟩
    split_ifs
    · exact State.sceneArrives_rangeLaw hs p
    · exact State.frameDiscarded_rangeLaw hs _
  | patternFrame p => exact ⟨_, rfl, State.running_rangeLaw h fun hs => State.patternFrame_rangeLaw hs p⟩
  | lapseExpiry => exact ⟨_, rfl, State.running_rangeLaw h fun hs => State.withLink_rangeLaw hs _⟩
  | lossExpiry => exact ⟨_, rfl, State.running_rangeLaw h fun hs => State.withLink_rangeLaw hs _⟩
  | tableWrite r => exact ⟨_, rfl, hmanage _ _ r tableWriteCommand_rangeLaw⟩
  | tableRead r => exact ⟨_, rfl, hmanage _ _ r tableReadCommand_rangeLaw⟩
  | commit r => exact ⟨_, rfl, hmanage _ _ r (withoutParams_rangeLaw fun _ => State.rangeLaw_of)⟩
  | discard r => exact ⟨_, rfl, hmanage _ _ r (withoutParams_rangeLaw fun _ => State.rangeLaw_of)⟩
  | statusNow r => exact ⟨_, rfl, hmanage _ _ r statusNowCommand_rangeLaw⟩
  | flagClear r => exact ⟨_, rfl, hmanage _ _ r flagClearCommand_rangeLaw⟩
  | sceneClear r => exact ⟨_, rfl, hmanage _ _ r sceneClearCommand_rangeLaw⟩
  | frameAlign r => exact ⟨_, rfl, hmanage _ _ r frameAlignCommand_rangeLaw⟩
  | testEnter r => exact ⟨_, rfl, hmanage _ _ r testEnterCommand_rangeLaw⟩
  | testExit r => exact ⟨_, rfl, hmanage _ _ r testExitCommand_rangeLaw⟩
  | portHalt r => exact ⟨_, rfl, hmanage _ _ r (portCommand_rangeLaw fun _ p => p.halt_chips)⟩
  | portStop r => exact ⟨_, rfl, hmanage _ _ r (portCommand_rangeLaw fun _ p => p.stop_keeps.1)⟩
  | portResume r => exact ⟨_, rfl, hmanage _ _ r (portCommand_rangeLaw fun b p => (p.resume_keeps b).1)⟩
  | driverPass r => exact ⟨_, rfl, hmanage _ _ r driverPassCommand_rangeLaw⟩
  | warmReset r => exact ⟨_, rfl, hmanage _ _ r (withoutParams_rangeLaw fun _ => State.rangeLaw_of)⟩
  | unknownCommand code r => exact ⟨_, rfl, hmanage _ code r fun _ _ => id⟩
  | upstreamFrameSent => exact ⟨_, rfl, State.running_rangeLaw h State.headSent_rangeLaw⟩
  | queueClaimEntry => exact ⟨_, rfl, State.running_rangeLaw h s.admitClaims_admits.rangeLaw⟩
  | warmResetTakesEffect => exact ⟨_, rfl, State.running_rangeLaw h State.warmResetDue_rangeLaw⟩
  | frameTimerExpiry =>
    exact ⟨_, rfl, State.running_rangeLaw h fun hs => State.outputFrameEvent_rangeLaw (State.elapse_rangeLaw hs _) _⟩
  | fsyncEdge edge => exact ⟨_, rfl, State.running_rangeLaw h fun hs => State.syncEdgeArrives_rangeLaw hs edge⟩
  | strobeEnd => exact ⟨_, rfl, State.running_rangeLaw h State.strobeEnds_rangeLaw⟩
  | msClockTick => exact ⟨_, rfl, State.running_rangeLaw h State.rangeLaw_of⟩
  | compositionComplete => exact ⟨_, rfl, State.running_rangeLaw h State.completeComposition_rangeLaw⟩
  | segmentWriteAck a => exact ⟨_, rfl, hbus _ _ fun b test _ => Port.segmentAck_chipsLaw b test a⟩
  | registerAck a => exact ⟨_, rfl, hbus _ _ fun b test _ => Port.registerAck_chipsLaw b test a⟩
  | nak a => exact ⟨_, rfl, hbus _ _ fun b test _ => Port.badAnswer_chipsLaw b test a⟩
  | replyTimeout d => exact ⟨_, rfl, hbus _ _ fun b test _ => Port.attemptFailed_chipsLaw b d test⟩

/-- Settles O56: every command keeps the law, and neither the queue of commands nor a tick touches it. -/
theorem stepKeepsRangeLaw : Obligations.StepKeepsRangeLaw := fun _ _ h hst =>
  step_keeps (P := fun s => s.rangeLaw = true) (fun _ _ hs => State.rangeLaw_of hs) (fun _ n hs => State.elapse_rangeLaw hs n)
    exec_rangeLaw h hst

end Sys2Proof.Machine
end

section
/-! SUPPORT. The arithmetic of the bend stages (R29 to R35, section 6 of the scope): rounding, the clamp, the slew and the
targets, and what bounds each. -/

namespace Sys2Proof.Machine

open Sys2Proof

/-! ### Rounding and clamping (00_scope.md section 6) -/

/-- The floor of a quotient plus one half: within half a unit of the exact quotient, and above it at an exact half. -/
theorem floorHalf_bounds (n : Int) {d : Int} (hd : 0 < d) :
    2 * ((2 * n + d) / (2 * d) * d - n) ≤ d ∧ -d < 2 * ((2 * n + d) / (2 * d) * d - n) := by
  have hle := Int.ediv_mul_le (2 * n + d) (b := 2 * d) (by omega)
  have hlt := Int.lt_ediv_add_one_mul_self (2 * n + d) (b := 2 * d) (by omega)
  constructor <;> linarith

/-- A rounded quotient is within half a unit of the exact one, and an exact half goes away from zero. -/
theorem roundDiv_bounds (n : Int) {d : Int} (hd : 0 < d) :
    2 * (roundDiv n d * d - n) ≤ d ∧ -d ≤ 2 * (roundDiv n d * d - n)
      ∧ (2 * (roundDiv n d * d - n) = d → 0 < n) ∧ (2 * (roundDiv n d * d - n) = -d → n < 0) := by
  rw [roundDiv]
  split_ifs with hn
  · obtain ⟨hle, hlt⟩ := floorHalf_bounds n hd
    have hzero : n = 0 → (2 * n + d) / (2 * d) = 0 := by
      rintro rfl
      exact Int.ediv_eq_zero_of_lt (by omega) (by omega)
    refine ⟨hle, hlt.le, fun hhalf => ?_, fun hhalf => by omega⟩
    by_contra hpos
    rw [hzero (by omega)] at hhalf
    omega
  · obtain ⟨hle, hlt⟩ := floorHalf_bounds (-n) hd
    rw [neg_mul]
    refine ⟨by omega, by omega, fun hhalf => by omega, fun _ => by omega⟩

/-- A quotient that is exact is not rounded. -/
theorem roundDiv_mul_self (q : Int) {d : Int} (hd : 0 < d) : roundDiv (d * q) d = q := by
  obtain ⟨hle, hge, -, -⟩ := roundDiv_bounds (d * q) hd
  have hle' : roundDiv (d * q) d - q < 1 := by nlinarith
  have hge' : -1 < roundDiv (d * q) d - q := by nlinarith
  omega

/-- A numerator of at most `k` divisors rounds to at most `k`. -/
theorem roundDiv_natAbs_le {n d : Int} {k : Nat} (hd : 0 < d) (hle : n ≤ d * k) (hge : -(d * k) ≤ n) :
    (roundDiv n d).natAbs ≤ k := by
  obtain ⟨hup, hdown, -, -⟩ := roundDiv_bounds n hd
  have hlt : roundDiv n d < k + 1 := by nlinarith
  have hgt : -(k + 1 : Int) < roundDiv n d := by nlinarith
  omega

theorem clampInt_natAbs_le (m : Nat) (v : Int) : (clampInt (-(m : Int)) m v).natAbs ≤ m := by
  rw [clampInt]
  omega

theorem clampInt_zero (m : Nat) : clampInt (-(m : Int)) m 0 = 0 := by
  rw [clampInt]
  omega

/-! ### Stage 2: the blend (R31) -/

theorem effectiveRate_steering (ws wm : Int) : effectiveRate 256 ws wm = ws := by
  rw [effectiveRate, sub_self, zero_mul, add_zero, roundDiv_mul_self _ (by decide)]

theorem effectiveRate_measured (ws wm : Int) : effectiveRate 0 ws wm = wm := by
  rw [effectiveRate, zero_mul, zero_add, sub_zero, roundDiv_mul_self _ (by decide)]

/-- A blend with weights that add up to 256 stays within the bound of both rates (R31). -/
theorem effectiveRate_natAbs_le {alpha ws wm : Int} {k : Nat} (h0 : 0 ≤ alpha) (h256 : alpha ≤ 256)
    (hs : ws.natAbs ≤ k) (hm : wm.natAbs ≤ k) : (effectiveRate alpha ws wm).natAbs ≤ k := by
  have hs1 : ws ≤ k := by omega
  have hs2 : -(k : Int) ≤ ws := by omega
  have hm1 : wm ≤ k := by omega
  have hm2 : -(k : Int) ≤ wm := by omega
  exact roundDiv_natAbs_le (by decide) (by nlinarith) (by nlinarith)

/-! ### Stages 1 to 4: the target (R29 to R33) -/

/-- The rows of R29 with a target give its weight α. -/
theorem bendInput_usable {b : BankCopy} {m : Motion} (hs : m.speedValid = true)
    (hv : m.yawValid = true ∨ m.wheelValid = true) (hmin : minSpeed b ≤ m.speed) :
    bendInput b m
      = .usable (if m.wheelValid = false then 0 else if m.yawValid = false then 256 else (bendAlpha b : Int)) := by
  rw [bendInput, if_neg (by simp [hs]), if_neg (by rcases hv with h | h <;> simp [h]), if_neg (Nat.not_lt.2 hmin)]
  cases hy : m.yawValid <;> cases hw : m.wheelValid <;> simp_all

/-- The rows of R29 without a target: no valid speed, no valid turn signal, or a car below the minimum speed. -/
theorem bendTargetOf_eq_zero {b : BankCopy} {m : Motion}
    (h : m.speedValid = false ∨ (m.yawValid = false ∧ m.wheelValid = false) ∨ m.speed < minSpeed b) (d : Side) :
    bendTargetOf b m d = 0 := by
  have hnone : bendInput b m = .lost ∨ bendInput b m = .slow := by
    rw [bendInput]
    split_ifs with hs hv hmin
    · exact .inl rfl
    · exact .inl rfl
    · exact .inr rfl
    all_goals simp_all
  rcases hnone with hi | hi <;> rw [bendTargetOf, hi]

theorem bendTarget_natAbs_le (b : BankCopy) (theta : Int) (d : Side) : (bendTarget b theta d).natAbs ≤ thetaMax b :=
  clampInt_natAbs_le _ _

/-- Every target lies within θmax (R33, R39). -/
theorem bendTargetOf_natAbs_le (b : BankCopy) (m : Motion) (d : Side) : (bendTargetOf b m d).natAbs ≤ thetaMax b := by
  rw [bendTargetOf]
  split
  · exact bendTarget_natAbs_le _ _ _
  · exact Nat.zero_le _

/-! ### Stage 5: the slew (R34) -/

theorem slew_step_le (step : Nat) (previous target : Int) : (slew step previous target - previous).natAbs ≤ step := by
  rw [slew]
  split_ifs <;> omega

/-- A slew shortens the way to its target by the step, or ends it. -/
theorem slew_distance (step : Nat) (previous target : Int) :
    (target - slew step previous target).natAbs = (target - previous).natAbs - step := by
  rw [slew]
  split_ifs <;> omega

theorem slew_of_near {step : Nat} {previous target : Int} (h : (target - previous).natAbs ≤ step) :
    slew step previous target = target := by
  have hd := slew_distance step previous target
  omega

/-- Between a previous angle and a target of one range a slew stays in the range (R39). -/
theorem slew_natAbs_le {step m : Nat} {previous target : Int} (hp : previous.natAbs ≤ m) (ht : target.natAbs ≤ m) :
    (slew step previous target).natAbs ≤ m := by
  rw [slew]
  split_ifs <;> omega

/-- A constant target is reached exactly where the events' steps cover the distance (R34). -/
theorem slew_iterate_eq_iff (step n : Nat) (previous target : Int) :
    (fun p => slew step p target)^[n] previous = target ↔ (target - previous).natAbs ≤ n * step := by
  induction n generalizing previous with
  | zero => simp only [Function.iterate_zero, id_eq, zero_mul]; omega
  | succ n ih =>
    rw [Function.iterate_succ_apply, ih, slew_distance, Nat.succ_mul]
    omega

/-! ### Stage 6: the column shift (R35) -/

theorem columnShift_eq (b : BankCopy) (d : Side) (theta : Int) :
    columnShift b d theta
      = clampInt (-((16 * colCount b d : Nat) : Int)) (16 * colCount b d : Nat) (roundDiv (theta * 16) (colWidth b d)) := by
  rw [columnShift]
  push_cast
  rw [neg_mul]

theorem columnShift_natAbs_le (b : BankCopy) (d : Side) (theta : Int) : (columnShift b d theta).natAbs ≤ 16 * colCount b d := by
  rw [columnShift_eq]
  exact clampInt_natAbs_le _ _

/-- Settles O41: each stage by the lemmas above. -/
theorem bendStageArithmetic : Obligations.BendStageArithmetic := by
  refine ⟨fun n d hd => roundDiv_bounds n hd, fun alpha ws wm h0 h256 hs hm => ?_, fun step previous target _ => ?_,
    fun b m d => ⟨fun h => bendTargetOf_eq_zero h d, fun hs hv hmin => ?_⟩, fun b d theta => ?_⟩
  · exact ⟨effectiveRate_steering ws wm, effectiveRate_measured ws wm,
      effectiveRate_natAbs_le h0 h256 hs (hm.trans (by decide))⟩
  · exact ⟨slew_step_le step previous target, slew_of_near, fun n => slew_iterate_eq_iff step n previous target⟩
  · intro alpha steering effective preview inner gain
    have hgain : (if innerSide preview = d then gainInner b else gainOuter b : Nat) = gain := by
      simp only [gain, inner, eq_comm (a := d), apply_ite (Nat.cast : Nat → Int)]
      rfl
    rw [bendTargetOf, bendInput_usable hs hv hmin, ← hgain]
    rfl
  · intro most
    rw [columnShift, neg_mul, colCount, colWidth, geometryId_eq]
    rfl

end Sys2Proof.Machine
end

section
/-! SUPPORT. What each command can do to the bend, the held motion record, the segment records, the ms clock, the ACTIVE
copy and RESET (R24, R38, R80, R112, R137, R145): said once for every command. -/

namespace Sys2Proof.Machine

open Sys2Proof

/-! ### What most effects keep -/

/-- `t` follows from `s` with the held motion record, the segment records, the ms clock, ACTIVE and RESET as they were, and a
bend that changes only with the mode: kept where the mode is kept or leaves the bend free, or else set to 0 (R38, R112). -/
structure State.Keeps (s t : State) : Prop where
  inReset : t.inReset = s.inReset
  motion : t.motion = s.motion
  segments : t.segments = s.segments
  msClock : t.time.msClock = s.time.msClock
  active : t.bank.active = s.bank.active
  bend : (t.bend = s.bend ∧ (t.sup.mode = s.sup.mode ∨ t.sup.mode.unbent = false)) ∨ t.bend = s.bend.straight

/-- An update that leaves these parts and the mode. -/
theorem State.Keeps.of_eq {s t : State} (inReset : t.inReset = s.inReset := by rfl) (motion : t.motion = s.motion := by rfl)
    (segments : t.segments = s.segments := by rfl) (msClock : t.time.msClock = s.time.msClock := by rfl)
    (active : t.bank.active = s.bank.active := by rfl) (bend : t.bend = s.bend := by rfl)
    (mode : t.sup.mode = s.sup.mode := by rfl) : s.Keeps t :=
  ⟨inReset, motion, segments, msClock, active, .inl ⟨bend, .inl mode⟩⟩

theorem State.Keeps.refl (s : State) : s.Keeps s := .of_eq

theorem State.Keeps.trans {s t u : State} (h : s.Keeps t) (h' : t.Keeps u) : s.Keeps u := by
  refine ⟨h'.inReset.trans h.inReset, h'.motion.trans h.motion, h'.segments.trans h.segments,
    h'.msClock.trans h.msClock, h'.active.trans h.active, ?_⟩
  rcases h.bend with ⟨hb, hm⟩ | hb <;> rcases h'.bend with ⟨hb', hm'⟩ | hb'
  · refine .inl ⟨hb'.trans hb, ?_⟩
    rcases hm' with hm' | hm'
    · rwa [hm']
    · exact .inr hm'
  · exact .inr (by rw [hb', hb])
  · exact .inr (hb'.trans hb)
  · exact .inr (by rw [hb', hb]; rfl)

/-! ### The mode decision (R111, R112) -/

/-- A decision sets the bend to 0 on entry to FALLBACK, DARK or TEST, and keeps it otherwise (R38, R112). -/
theorem State.decideMode_bend (s : State) :
    s.decideMode.bend
      = if s.decideMode.sup.mode ≠ s.sup.mode ∧ s.decideMode.sup.mode.unbent = true then s.bend.straight else s.bend := by
  simp [State.decideMode, State.enterMode]

theorem State.decideMode_keeps (s : State) : s.Keeps s.decideMode := by
  refine ⟨rfl, rfl, rfl, rfl, rfl, ?_⟩
  rw [s.decideMode_bend]
  split_ifs with h
  · exact .inr rfl
  · refine .inl ⟨rfl, ?_⟩
    rwa [not_and_or, not_not, Bool.not_eq_true] at h

theorem State.withLink_keeps (s : State) (e : LinkEffect) : s.Keeps (s.withLink e) := by
  have hraised : s.Keeps (({ s with link := e.link } : State).raise e.mask) := .of_eq
  rcases s.withLink_cases e with ⟨-, h⟩ | ⟨-, h⟩ <;> rw [h]
  · exact hraised
  · exact hraised.trans (State.decideMode_keeps _)

theorem State.endTest_keeps (s : State) (flagged : Bool) : s.Keeps (s.endTest flagged) := by
  have hended : s.Keeps { s.raise (Flag.testEnded.maskIf flagged) with sup := { s.sup with testActive := false } } := .of_eq
  exact hended.trans (State.decideMode_keeps _)

theorem State.startTest_keeps (s : State) (p : TestProgram) : s.Keeps (s.startTest p) := by
  have hstarted : s.Keeps
      { s with sup := { s.sup with testActive := true, program := some p, current := p.enabled.head?, walk := 0, dwell := 0 } } :=
    .of_eq
  exact hstarted.trans (State.decideMode_keeps _)

/-! ### The downstream link -/

theorem State.Admits.keeps {s t : State} (h : s.Admits t) : s.Keeps t := by
  obtain ⟨added, status, report, ports, rfl, -⟩ := h
  exact .of_eq

theorem State.frameDiscarded_keeps (s : State) (restarted : Bool) : s.Keeps (s.frameDiscarded restarted) := .of_eq

theorem State.startReceived_keeps (s : State) : s.Keeps s.startReceived := by
  rw [State.startReceived]
  split_ifs
  · exact s.frameDiscarded_keeps _
  · exact .of_eq

theorem State.frameFails_keeps (s : State) (cause : FrameFault) : s.Keeps (s.frameFails cause) := by
  cases cause with
  | startInFrame => exact s.frameDiscarded_keeps _
  | overflow => exact s.frameDiscarded_keeps _
  | failedCheck data =>
    rw [State.frameFails]
    split_ifs
    · exact s.frameDiscarded_keeps _
    · exact .refl s

theorem State.squelched_keeps (s : State) : s.Keeps s.squelched := by
  rw [State.squelched]
  split_ifs
  · exact (s.frameDiscarded_keeps _).trans (State.withLink_keeps _ _)
  · exact s.withLink_keeps _

/-- A MOTION frame replaces the held motion record and keeps the rest (R24). -/
theorem State.motionArrives_keeps (s : State) (m : MotionPayload) :
    State.Keeps { s with motion := motionOf m } (s.motionArrives m) := by
  have hlink := State.withLink_keeps
    { s with rx := s.rx.accepted (frameBytes classMotion (motionBytes m)), motion := motionOf m }
  have hrecord : State.Keeps { s with motion := motionOf m }
    { s with rx := s.rx.accepted (frameBytes classMotion (motionBytes m)), motion := motionOf m } := .of_eq
  rw [State.motionArrives, State.testSpeedCheck]
  split_ifs
  · exact hrecord.trans ((hlink _).trans (State.endTest_keeps _ _))
  · exact hrecord.trans (hlink _)

theorem State.sceneFrame_keeps (s : State) (p : ScenePayload) :
    s.Keeps (if p.framed then s.sceneArrives p else s.frameDiscarded false) := by
  split_ifs
  · exact .of_eq
  · exact s.frameDiscarded_keeps _

theorem State.patternFrame_keeps (s : State) (p : PatternPayload) : s.Keeps (s.patternFrame p) := by
  rw [State.patternFrame]
  split
  · split_ifs
    · exact .of_eq
    · exact s.frameDiscarded_keeps _
  · exact s.frameDiscarded_keeps _

theorem State.lowreqTaken_keeps (s : State) : s.Keeps s.lowreqTaken := by
  rw [State.lowreqTaken]
  split
  · exact .refl s
  · rename_i h _
    have htaken : s.Keeps
        { s.elapse (Config.lowreqTicks - h) with
          sup := { (s.elapse (Config.lowreqTicks - h)).sup with
            lowreqLevel := (s.elapse (Config.lowreqTicks - h)).sup.lowreqLine, lowreqHeld := none } } := .of_eq
    exact htaken.trans (State.decideMode_keeps _)

theorem State.lowreqLineTo_keeps (s : State) (active : Bool) : s.Keeps (s.lowreqLineTo active) := by
  rw [State.lowreqLineTo]
  split
  · exact .refl s
  · exact .of_eq

/-! ### MANAGE commands (R159) -/

/-- A MANAGE record keeps what its command keeps, whatever its frame. -/
theorem State.manageRecord_keeps_of {run : List Byte → State → CommandEffect}
    (hrun : ∀ params u, State.Keeps u (run params u).state) (s : State) (code : Byte) (r : ManageRecord) :
    s.Keeps (s.manageRecord code r run) := by
  refine State.manageRecord_keeps (P := s.Keeps) (fun u tag hu => hu.trans ?_) (fun u f hu => hu.trans .of_eq)
    (fun u f hu => hu.trans .of_eq) (fun params u hu => hu.trans (hrun params u)) (.refl s) code r
  rw [State.openFrame]
  split
  · exact .refl u
  · exact .of_eq

/-- A command without parameters keeps what its effect keeps. -/
theorem withoutParams_keeps {run : State → CommandEffect} (hrun : ∀ u : State, u.Keeps (run u).state) (params : List Byte)
    (s : State) : s.Keeps (withoutParams run params s).state := by
  rw [withoutParams]
  split
  · exact .refl s
  · exact hrun s

theorem tableWriteCommand_keeps (params : List Byte) (s : State) : s.Keeps (tableWriteCommand params s).state := by
  rw [tableWriteCommand]
  split
  · exact .refl s
  · split_ifs <;> exact .of_eq

theorem tableReadCommand_keeps (params : List Byte) (s : State) : s.Keeps (tableReadCommand params s).state := by
  rw [tableReadCommand]
  split
  · exact .refl s
  · split_ifs <;> exact .refl s

theorem statusNowCommand_keeps : ∀ params (s : State), s.Keeps (statusNowCommand params s).state :=
  withoutParams_keeps fun u =>
    have hclaim : u.Keeps { u with mgmt := { u.mgmt with statusClaim := true } } := .of_eq
    hclaim.trans (State.admitClaims_admits _).keeps

theorem flagClearCommand_keeps (params : List Byte) (s : State) : s.Keeps (flagClearCommand params s).state := by
  rw [flagClearCommand]
  split <;> exact .of_eq

theorem frameAlignCommand_keeps (params : List Byte) (s : State) : s.Keeps (frameAlignCommand params s).state := by
  rw [frameAlignCommand]
  split
  · exact .refl s
  · split_ifs <;> exact .of_eq

theorem testEnterCommand_keeps (params : List Byte) (s : State) : s.Keeps (testEnterCommand params s).state := by
  rw [testEnterCommand]
  split
  · exact .refl s
  · split_ifs
    · exact .refl s
    · exact .refl s
    · exact .refl s
    · exact s.startTest_keeps _

theorem testExitCommand_keeps : ∀ params (s : State), s.Keeps (testExitCommand params s).state := by
  refine withoutParams_keeps fun u => ?_
  dsimp only
  split_ifs
  · exact u.endTest_keeps _
  · exact .refl u

theorem portCommand_keeps (act : BankCopy → Port → Port) (params : List Byte) (s : State) :
    s.Keeps (portCommand act params s).state := by
  rw [portCommand]
  split
  · exact .refl s
  · split
    · exact .refl s
    · split_ifs <;> exact .of_eq

theorem driverPassCommand_keeps (params : List Byte) (s : State) : s.Keeps (driverPassCommand params s).state := by
  rw [driverPassCommand]
  split
  · exact .refl s
  · split
    · exact .refl s
    · split_ifs <;> exact .of_eq

/-! ### The Timebase, the lamp buses and composition -/

@[simp] theorem State.elapse_zero (s : State) : s.elapse 0 = s := by
  simp [State.elapse, Timebase.elapse]

theorem State.busEvent_keeps (s : State) (d : Side) (act : BankCopy → Bool → Port → PortEffect) :
    s.Keeps (s.busEvent d act) := by
  let e := act s.bank.active (decide (s.sup.mode = .test)) (s.ports.get d)
  have hport : s.Keeps (({ s with ports := s.ports.set d e.port } : State).raise e.mask) := .of_eq
  exact hport.trans (State.admitClaims_admits _).keeps

theorem State.strobeEnds_keeps (s : State) : s.Keeps s.strobeEnds := by
  rw [State.strobeEnds]
  split_ifs
  · exact .of_eq
  · exact .refl s

/-- Composition complete steps the segment records and keeps the rest (R81). -/
theorem State.completeComposition_keeps (s : State) :
    State.Keeps { s with segments := s.completeComposition.segments } s.completeComposition := by
  obtain ⟨hr, -, -, hmotion, hbend, -, -, hsup, htime, hbank, -⟩ := s.completeComposition_frame
  exact .of_eq hr hmotion rfl (by rw [htime]) (by rw [hbank]) hbend (by rw [hsup])

/-- The segment records step only where a composition is in progress (R81). -/
theorem State.completeComposition_segments {s : State} (h : s.completeComposition.segments ≠ s.segments) :
    s.composer.inFlight.isSome = true := by
  rw [Option.isSome_iff_ne_none]
  intro hf
  exact h (by rw [State.completeComposition_none hf])

/-- An output frame event keeps the held motion record, the ms clock and RESET, and completes a composition (R4, R138). -/
theorem State.outputFrameEvent_frame (s : State) (cause : FrameCause) :
    (s.outputFrameEvent cause).inReset = s.inReset ∧ (s.outputFrameEvent cause).motion = s.motion
      ∧ (s.outputFrameEvent cause).segments = s.completeComposition.segments
      ∧ (s.outputFrameEvent cause).time.msClock = s.time.msClock := by
  obtain ⟨hr, -, hm, -, -, -, -, -, -, -, -, hs, ht⟩ := s.atDecisions_frame cause
  have hstatus := (State.statusAtEvent_admits (s.atDecisions cause).frameDecisions
    s.completeComposition.mgmt.reportRequest).keeps
  rw [s.outputFrameEvent_eq]
  refine ⟨hstatus.inReset.trans hr, hstatus.motion.trans hm, hstatus.segments.trans hs, hstatus.msClock.trans ?_⟩
  have hclock : (s.atDecisions cause).time.msClock = s.time.msClock := by
    rw [ht, Timebase.syncFrame_msClock]
    rfl
  exact hclock

/-! ### Every command -/

/-- What a command can do to the parts that `State.Keeps` speaks of: keep them, or act as one of the commands that own a part
does. Under RESET a command that keeps them keeps the mode too (00_scope.md section 8). -/
inductive State.Effect (s : State) : Instr → State → Prop
  | kept {c : Instr} {t : State} (hkeeps : s.Keeps t) (hmode : s.inReset = true → t.sup.mode = s.sup.mode) : Effect s c t
  | motion {m : MotionPayload} {t : State} (hr : s.inReset = false) (hkeeps : State.Keeps { s with motion := motionOf m } t) :
      Effect s (.motionFrame m) t
  | clock {t : State} (hr : s.inReset = false)
      (hkeeps : State.Keeps { s with time := { s.time with msClock := s.time.msClock + 1#32 } } t) : Effect s .msClockTick t
  | composed (hr : s.inReset = false) : Effect s .compositionComplete s.completeComposition
  | event {c : Instr} (hr : s.inReset = false) (hc : c = .frameTimerExpiry ∨ ∃ e, c = .fsyncEdge e) (n : Nat)
      (cause : FrameCause) : Effect s c ((s.elapse n).outputFrameEvent cause)
  | coldReset : Effect s .coldReset s.coldReset
  | resetEnds (hr : s.inReset = true) : Effect s .resetEnds s.endReset
  | warmReset {c : Instr} (hr : s.inReset = false) (hc : c = .upstreamFrameSent ∨ c = .warmResetTakesEffect)
      (hhead : ∃ f, s.mgmt.queue.head? = some f ∧ f.warmReply = true) : Effect s c s.warmResetNow

theorem State.Effect.refl (s : State) (c : Instr) : s.Effect c s := .kept (.refl s) fun _ => rfl

/-- A command that does nothing under RESET has the effect it has outside RESET. -/
theorem State.running_effect {s : State} {c : Instr} {f : State → State} (h : s.inReset = false → s.Effect c (f s)) :
    s.Effect c (s.running f) := by
  cases hr : s.inReset
  · rw [State.running_normal hr]
    exact h hr
  · rw [State.running_inReset hr]
    exact .refl s c

theorem State.running_kept {s : State} {c : Instr} {f : State → State} (h : s.Keeps (f s)) : s.Effect c (s.running f) :=
  State.running_effect fun hr => .kept h fun hr' => absurd (hr.symm.trans hr') (by decide)

theorem State.headSent_effect {s : State} (hr : s.inReset = false) : s.Effect .upstreamFrameSent s.headSent := by
  rcases s.headSent_cases with ⟨-, h⟩ | ⟨f, rest, hq, hw, h⟩ | ⟨f, rest, -, -, h⟩ <;> rw [h]
  · exact .refl s _
  · exact .warmReset hr (.inl rfl) ⟨f, by rw [hq]; rfl, hw⟩
  · have hfreed : s.Keeps { s with mgmt := { s.mgmt with queue := rest } } := .of_eq
    exact .kept (hfreed.trans (State.admitClaims_admits _).keeps) fun hr' => absurd (hr.symm.trans hr') (by decide)

theorem State.warmResetDue_effect {s : State} (hr : s.inReset = false) : s.Effect .warmResetTakesEffect s.warmResetDue := by
  rw [State.warmResetDue]
  split_ifs with h
  · exact .warmReset hr (.inr rfl) ((Option.any_eq_true _ _).1 h)
  · exact .refl s _

theorem State.syncEdgeArrives_effect {s : State} (hr : s.inReset = false) (edge : SyncEdge) :
    s.Effect (.fsyncEdge edge) (s.syncEdgeArrives edge) := by
  rw [State.syncEdgeArrives]
  split_ifs
  · have hevent := State.Effect.event hr (.inr ⟨edge, rfl⟩) 0 .acceptedEdge
    rwa [s.elapse_zero] at hevent
  · exact .kept .of_eq fun _ => rfl
  · exact .refl s _

/-- Every command has a next state, and one of these effects. -/
theorem exec_effect (c : Instr) (s : State) : ∃ t, exec c s = .next t ∧ s.Effect c t := by
  have hmanage : ∀ (c : Instr) (code : Byte) (r : ManageRecord) {run : List Byte → State → CommandEffect},
      (∀ params u, State.Keeps u (run params u).state) → s.Effect c (s.running fun u => u.manageRecord code r run) :=
    fun c code r _ hrun => State.running_kept (State.manageRecord_keeps_of hrun s code r)
  cases c with
  | coldReset => exact ⟨_, rfl, .coldReset⟩
  | resetEnds =>
    refine ⟨_, rfl, ?_⟩
    split_ifs with hr
    · exact .resetEnds hr
    · exact .refl s _
  | lowreqEdge active =>
    refine ⟨_, rfl, .kept (s.lowreqLineTo_keeps active) fun _ => ?_⟩
    rw [State.lowreqLineTo]
    split_ifs <;> rfl
  | lowreqLevelChange => exact ⟨_, rfl, State.running_kept s.lowreqTaken_keeps⟩
  | lineSquelch => exact ⟨_, rfl, State.running_kept s.squelched_keeps⟩
  | linkFrameError cause => exact ⟨_, rfl, State.running_kept (s.frameFails_keeps cause)⟩
  | startSymbol => exact ⟨_, rfl, State.running_kept s.startReceived_keeps⟩
  | motionFrame m => exact ⟨_, rfl, State.running_effect fun hr => .motion hr (s.motionArrives_keeps m)⟩
  | sceneFrame p => exact ⟨_, rfl, State.running_kept (s.sceneFrame_keeps p)⟩
  | patternFrame p => exact ⟨_, rfl, State.running_kept (s.patternFrame_keeps p)⟩
  | lapseExpiry => exact ⟨_, rfl, State.running_kept (s.withLink_keeps _)⟩
  | lossExpiry => exact ⟨_, rfl, State.running_kept (s.withLink_keeps _)⟩
  | tableWrite r => exact ⟨_, rfl, hmanage _ _ r tableWriteCommand_keeps⟩
  | tableRead r => exact ⟨_, rfl, hmanage _ _ r tableReadCommand_keeps⟩
  | commit r => exact ⟨_, rfl, hmanage _ _ r (withoutParams_keeps fun _ => .of_eq)⟩
  | discard r => exact ⟨_, rfl, hmanage _ _ r (withoutParams_keeps fun _ => .of_eq)⟩
  | statusNow r => exact ⟨_, rfl, hmanage _ _ r statusNowCommand_keeps⟩
  | flagClear r => exact ⟨_, rfl, hmanage _ _ r flagClearCommand_keeps⟩
  | sceneClear r => exact ⟨_, rfl, hmanage _ _ r (withoutParams_keeps fun _ => .of_eq)⟩
  | frameAlign r => exact ⟨_, rfl, hmanage _ _ r frameAlignCommand_keeps⟩
  | testEnter r => exact ⟨_, rfl, hmanage _ _ r testEnterCommand_keeps⟩
  | testExit r => exact ⟨_, rfl, hmanage _ _ r testExitCommand_keeps⟩
  | portHalt r => exact ⟨_, rfl, hmanage _ _ r (portCommand_keeps _)⟩
  | portStop r => exact ⟨_, rfl, hmanage _ _ r (portCommand_keeps _)⟩
  | portResume r => exact ⟨_, rfl, hmanage _ _ r (portCommand_keeps _)⟩
  | driverPass r => exact ⟨_, rfl, hmanage _ _ r driverPassCommand_keeps⟩
  | warmReset r => exact ⟨_, rfl, hmanage _ _ r (withoutParams_keeps fun _ => .of_eq)⟩
  | unknownCommand code r => exact ⟨_, rfl, hmanage _ code r fun _ u => .refl u⟩
  | upstreamFrameSent => exact ⟨_, rfl, State.running_effect State.headSent_effect⟩
  | queueClaimEntry => exact ⟨_, rfl, State.running_kept s.admitClaims_admits.keeps⟩
  | warmResetTakesEffect => exact ⟨_, rfl, State.running_effect State.warmResetDue_effect⟩
  | frameTimerExpiry => exact ⟨_, rfl, State.running_effect fun hr => .event hr (.inl rfl) _ _⟩
  | fsyncEdge edge => exact ⟨_, rfl, State.running_effect fun hr => State.syncEdgeArrives_effect hr edge⟩
  | strobeEnd => exact ⟨_, rfl, State.running_kept s.strobeEnds_keeps⟩
  | msClockTick => exact ⟨_, rfl, State.running_effect fun hr => .clock hr .of_eq⟩
  | compositionComplete => exact ⟨_, rfl, State.running_effect .composed⟩
  | segmentWriteAck a => exact ⟨_, rfl, State.running_kept (s.busEvent_keeps _ _)⟩
  | registerAck a => exact ⟨_, rfl, State.running_kept (s.busEvent_keeps _ _)⟩
  | nak a => exact ⟨_, rfl, State.running_kept (s.busEvent_keeps _ _)⟩
  | replyTimeout d => exact ⟨_, rfl, State.running_kept (s.busEvent_keeps _ _)⟩

theorem exec_effect_of_next {c : Instr} {s t : State} (h : exec c s = .next t) : s.Effect c t := by
  obtain ⟨u, hu, he⟩ := exec_effect c s
  rw [h] at hu
  cases hu
  exact he

/-- Settles O60: each of these parts by its owners among the effects. -/
theorem ownersAloneChangeTheirState : Obligations.OwnersAloneChangeTheirState := by
  intro c s t h hcold hwarm hsent
  cases exec_effect_of_next h with
  | kept hk _ =>
    exact ⟨fun hne => absurd hk.motion hne, fun hne => absurd hk.segments hne, fun hne => absurd hk.segments hne,
      fun hne => absurd hk.msClock hne, fun hne => absurd hk.inReset hne⟩
  | motion _ hk =>
    exact ⟨fun _ => ⟨_, rfl⟩, fun hne => absurd hk.segments hne, fun hne => absurd hk.segments hne,
      fun hne => absurd hk.msClock hne, fun hne => absurd hk.inReset hne⟩
  | clock _ hk =>
    exact ⟨fun hne => absurd hk.motion hne, fun hne => absurd hk.segments hne, fun hne => absurd hk.segments hne,
      fun _ => ⟨rfl, hk.msClock⟩, fun hne => absurd hk.inReset hne⟩
  | composed _ =>
    have hk := s.completeComposition_keeps
    exact ⟨fun hne => absurd hk.motion hne, fun _ => .inl rfl, State.completeComposition_segments,
      fun hne => absurd hk.msClock hne, fun hne => absurd hk.inReset hne⟩
  | event _ hc n cause =>
    obtain ⟨hr, hm, hs, ht⟩ := (s.elapse n).outputFrameEvent_frame cause
    refine ⟨fun hne => absurd hm hne, fun _ => .inr hc, fun hne => ?_, fun hne => absurd ht hne, fun hne => absurd hr hne⟩
    rw [hs] at hne
    exact State.completeComposition_segments (s := s.elapse n) hne
  | coldReset => exact absurd rfl hcold
  | resetEnds _ =>
    exact ⟨fun hne => absurd rfl hne, fun hne => absurd rfl hne, fun hne => absurd rfl hne, fun hne => absurd rfl hne,
      fun _ => rfl⟩
  | warmReset _ hc hhead =>
    obtain ⟨f, hf, hw⟩ := hhead
    rcases hc with rfl | rfl
    · exact absurd hw (Bool.eq_false_iff.1 (hsent rfl f hf))
    · exact absurd rfl hwarm

end Sys2Proof.Machine
end

section
/-! SUPPORT. The law of the bend (R35, R37 to R39): what of it holds before the pass of an output frame event, and that the pass
and the resets give the whole of it. -/

namespace Sys2Proof.Machine

open Sys2Proof

/-! ### The law in its parts -/

/-- The part of the law that a commit keeps too: angles within θmax of ACTIVE, and no bend in FALLBACK, DARK and TEST. A shift
may exceed a lamp that a commit has made narrower, until the pass of the same event forms it anew (R28, R37). -/
def State.angleLaw (s : State) : Prop :=
  (∀ d, (s.bend.theta.get d).natAbs ≤ thetaMax s.bank.active)
    ∧ (s.sup.mode.unbent = true → s.bend.theta = .both 0 ∧ s.bend.shift = .both 0)

/-- The shifts lie within a lamp width of ACTIVE (R35). -/
def State.shiftLaw (s : State) : Prop := ∀ d, (s.bend.shift.get d).natAbs ≤ 16 * colCount s.bank.active d

theorem State.bendLaw_iff (s : State) :
    s.bendLaw = true ↔ s.angleLaw ∧ s.shiftLaw ∧ (s.inReset = true → s.sup.mode.unbent = true) := by
  have himp : ∀ a b : Bool, (!a || b) = true ↔ (a = true → b = true) := by decide
  simp only [State.bendLaw, BendUnit.within, State.angleLaw, State.shiftLaw, Side.forall_iff, Bool.and_eq_true, himp,
    decide_eq_true_eq]
  tauto

/-- A bend of 0 meets the law under every ACTIVE. -/
theorem State.bendLaw_of_zero {s : State} (htheta : s.bend.theta = .both 0) (hshift : s.bend.shift = .both 0)
    (hreset : s.inReset = true → s.sup.mode.unbent = true) : s.bendLaw = true := by
  refine s.bendLaw_iff.2 ⟨⟨fun d => ?_, fun _ => ⟨htheta, hshift⟩⟩, fun d => ?_, hreset⟩
  · rw [htheta, Sided.get_both]
    exact Nat.zero_le _
  · rw [hshift, Sided.get_both]
    exact Nat.zero_le _

/-! ### Effects that keep ACTIVE -/

theorem State.Keeps.angleLaw {s t : State} (h : s.Keeps t) (hs : s.angleLaw) : t.angleLaw := by
  obtain ⟨htheta, hzero⟩ := hs
  rw [State.angleLaw, h.active]
  rcases h.bend with ⟨hb, hmode⟩ | hb <;> rw [hb]
  · refine ⟨htheta, fun hunbent => ?_⟩
    rcases hmode with hmode | hmode
    · exact hzero (hmode ▸ hunbent)
    · exact absurd hunbent (Bool.eq_false_iff.1 hmode)
  · refine ⟨fun d => ?_, fun _ => ⟨rfl, rfl⟩⟩
    rw [BendUnit.straight, Sided.get_both]
    exact Nat.zero_le _

theorem State.Keeps.shiftLaw {s t : State} (h : s.Keeps t) (hs : s.shiftLaw) : t.shiftLaw := by
  rw [State.shiftLaw, h.active]
  rcases h.bend with ⟨hb, -⟩ | hb <;> rw [hb]
  · exact hs
  · intro d
    rw [BendUnit.straight, Sided.get_both]
    exact Nat.zero_le _

/-- An effect that keeps ACTIVE keeps the law; under RESET it has to keep the mode. -/
theorem State.Keeps.bendLaw {s t : State} (h : s.Keeps t) (hs : s.bendLaw = true)
    (hmode : s.inReset = true → t.sup.mode = s.sup.mode) : t.bendLaw = true := by
  obtain ⟨hangle, hshift, hreset⟩ := s.bendLaw_iff.1 hs
  refine t.bendLaw_iff.2 ⟨h.angleLaw hangle, h.shiftLaw hshift, fun hr => ?_⟩
  rw [h.inReset] at hr
  rw [hmode hr]
  exact hreset hr

/-- Outside RESET an effect that keeps ACTIVE keeps the law. -/
theorem State.Keeps.bendLaw_running {s t : State} (h : s.Keeps t) (hr : s.inReset = false) (hs : s.bendLaw = true) :
    t.bendLaw = true :=
  h.bendLaw hs fun hr' => absurd (hr.symm.trans hr') (by decide)

/-! ### The output frame event (R28, R37, R39) -/

/-- A commit clamps the angles to the θmax it brings, and leaves a bend of 0 (R37). -/
theorem State.commitAtEvent_angleLaw {s : State} (h : s.angleLaw) : s.commitAtEvent.angleLaw := by
  rcases s.commitAtEvent_cases with ⟨-, hs⟩ | ⟨id, off, -, -, hs⟩ | ⟨-, -, hs⟩ <;> rw [hs]
  · exact h
  · exact h
  · refine (State.withLink_keeps _ _).angleLaw ⟨fun d => ?_, fun hunbent => ?_⟩
    · rw [BendUnit.commitClamp, Sided.get_of]
      exact clampInt_natAbs_le _ _
    · obtain ⟨htheta, hshift⟩ := h.2 hunbent
      refine ⟨?_, hshift⟩
      simp only [BendUnit.commitClamp, htheta, Sided.get_both, clampInt_zero]
      rfl

theorem State.atDecisions_angleLaw {s : State} (h : s.angleLaw) (cause : FrameCause) : (s.atDecisions cause).angleLaw := by
  have hbegin : (s.completeComposition.beginEvent cause).angleLaw := s.completeComposition_keeps.angleLaw h
  exact State.commitAtEvent_angleLaw hbegin

/-- The pass forms angles and shifts within the bounds of its tables (R34, R35, R39). -/
theorem BendUnit.pass_bounds (b : BankCopy) (m : Motion) (u : BendUnit) (d : Side)
    (h : (u.theta.get d).natAbs ≤ thetaMax b) :
    ((u.pass b m).theta.get d).natAbs ≤ thetaMax b ∧ ((u.pass b m).shift.get d).natAbs ≤ 16 * colCount b d := by
  simp only [BendUnit.pass, Sided.get_of]
  exact ⟨slew_natAbs_le h (bendTargetOf_natAbs_le b m d), columnShift_natAbs_le b d _⟩

/-- The modes in which the bend is held at 0, and those with a pass (R28, R38). -/
theorem BeamMode.unbent_or_passes (mode : BeamMode) :
    (mode.unbent = true ∧ (mode = .fallback ∨ mode = .dark ∨ mode = .test))
      ∨ (mode.unbent = false ∧ (mode = .normal ∨ mode = .hold)) := by
  cases mode <;> decide

/-- The decisions of an event outside RESET give the whole law again: the pass forms both shifts under the tables of the event,
and a bend of 0 stays 0 (R28). -/
theorem State.frameDecisions_bendLaw {s : State} (hr : s.inReset = false) (h : s.angleLaw) :
    s.frameDecisions.bendLaw = true := by
  have hreset : s.frameDecisions.inReset = true → s.frameDecisions.sup.mode.unbent = true :=
    fun hr' => absurd (hr.symm.trans hr') (by decide)
  have hbend : s.frameDecisions.bend = s.bend.frame s.bank.active s.sup.mode s.motion := rfl
  rcases s.sup.mode.unbent_or_passes with ⟨hunbent, hmode⟩ | ⟨hbent, hmode⟩
  · obtain ⟨htheta, hshift⟩ := h.2 hunbent
    rw [BendUnit.frame_kept hmode] at hbend
    exact State.bendLaw_of_zero (by rw [hbend]; exact htheta) (by rw [hbend]; exact hshift) hreset
  · rw [BendUnit.frame_pass hmode] at hbend
    have hbounds := fun d => s.bend.pass_bounds s.bank.active s.motion d (h.1 d)
    refine s.frameDecisions.bendLaw_iff.2 ⟨⟨fun d => ?_, fun hunbent => ?_⟩, fun d => ?_, hreset⟩
    · rw [hbend]
      exact (hbounds d).1
    · rw [State.frameDecisions_mode, hbent] at hunbent
      cases hunbent
    · rw [hbend]
      exact (hbounds d).2

theorem State.outputFrameEvent_bendLaw {s : State} (hr : s.inReset = false) (h : s.bendLaw = true) (cause : FrameCause) :
    (s.outputFrameEvent cause).bendLaw = true := by
  obtain ⟨hangle, -, -⟩ := s.bendLaw_iff.1 h
  have hr' : (s.atDecisions cause).inReset = false := (s.atDecisions_frame cause).1.trans hr
  have hdecisions := State.frameDecisions_bendLaw hr' (State.atDecisions_angleLaw hangle cause)
  rw [s.outputFrameEvent_eq]
  exact (State.statusAtEvent_admits _ _).keeps.bendLaw_running hr' hdecisions

/-! ### Every command and every step -/

/-- Every command has a next state and keeps the law: most keep ACTIVE, an event forms the bend anew, and the resets set it
to 0. -/
theorem exec_bendLaw (c : Instr) (s : State) (h : s.bendLaw = true) : ∃ t, exec c s = .next t ∧ t.bendLaw = true := by
  obtain ⟨t, ht, heffect⟩ := exec_effect c s
  refine ⟨t, ht, ?_⟩
  cases heffect with
  | kept hk hmode => exact hk.bendLaw h hmode
  | motion hr hk => exact hk.bendLaw_running hr h
  | clock hr hk => exact hk.bendLaw_running hr h
  | composed hr => exact s.completeComposition_keeps.bendLaw_running hr h
  | event hr _ n cause => exact State.outputFrameEvent_bendLaw (s := s.elapse n) hr h cause
  | coldReset => exact State.bendLaw_of_zero rfl rfl fun _ => rfl
  | resetEnds hr =>
    obtain ⟨⟨-, hzero⟩, -, hreset⟩ := s.bendLaw_iff.1 h
    obtain ⟨htheta, hshift⟩ := hzero (hreset hr)
    exact State.bendLaw_of_zero htheta hshift fun hr' => absurd hr' Bool.false_ne_true
  | warmReset _ _ _ => exact State.bendLaw_of_zero rfl rfl fun hr' => absurd hr' Bool.false_ne_true

/-- Settles O50: every command keeps the law, and neither the queue of commands nor a tick touches it. -/
theorem stepKeepsBendLaw : Obligations.StepKeepsBendLaw := fun _ _ h hst =>
  step_keeps (P := fun s => s.bendLaw = true) (fun _ _ hs => hs) (fun _ _ hs => hs) exec_bendLaw h hst

end Sys2Proof.Machine
end

section
/-! SUPPORT. MOTION_FRAME (R24, R25, R124): the record a payload gives, and the mode decisions of an arrival, which leave the
bend. -/

namespace Sys2Proof.Machine

open Sys2Proof

/-! ### The record (R25, R126) -/

/-- The function a code names, by the code's number; one that names none is LOW (R25). -/
theorem lightFnOf_eq (code : Byte) :
    lightFnOf code = if code.toNat = 0 then .off else if code.toNat = 2 then .adaptive else .low := by
  have h0 : code = 0#8 ↔ code.toNat = 0 := BitVec.toNat_inj.symm
  have h2 : code = 2#8 ↔ code.toNat = 2 := BitVec.toNat_inj.symm
  simp only [lightFnOf, h0, h2]

/-- A value clamped between two bounds in order. -/
theorem clampInt_eq {lo hi : Int} (h : lo ≤ hi) (v : Int) :
    clampInt lo hi v = if v < lo then lo else if hi < v then hi else v := by
  rw [clampInt]
  split_ifs <;> omega

/-- The indices byte holds the LOW index in its high half and the ADAPTIVE index in its low half (R126). -/
theorem indices_halves (b : Byte) :
    (b.extractLsb' 4 4).toNat = b.toNat / 16 ∧ (b.extractLsb' 0 4).toNat = b.toNat % 16 := by
  have hb := b.isLt
  simp only [BitVec.extractLsb'_toNat, Nat.shiftRight_eq_div_pow]
  omega

/-- The record of a payload, field by field (R25). -/
theorem motionOf_eq (m : MotionPayload) :
    motionOf m =
      { speed := if 2000 < m.speed.toNat then 2000 else m.speed.toNat
        speedValid := m.flags.getLsbD 0
        yaw := if m.yaw.toInt < -12000 then -12000 else if 12000 < m.yaw.toInt then 12000 else m.yaw.toInt
        yawValid := m.flags.getLsbD 1
        wheel := if m.wheel.toInt < -4500 then -4500 else if 4500 < m.wheel.toInt then 4500 else m.wheel.toInt
        wheelValid := m.flags.getLsbD 2
        requested := if m.function.toNat = 0 then .off else if m.function.toNat = 2 then .adaptive else .low
        lowIndex := (m.indices.extractLsb' 4 4).toNat
        adaptiveIndex := (m.indices.extractLsb' 0 4).toNat
        source := if m.flags.getLsbD 3 = true then .streamed else .stored } := by
  obtain ⟨hlow, hadaptive⟩ := indices_halves m.indices
  have hspeed : min 2000 m.speed.toNat = if 2000 < m.speed.toNat then 2000 else m.speed.toNat := by
    split_ifs <;> omega
  rw [motionOf, lightFnOf_eq, clampInt_eq (by decide), clampInt_eq (by decide), hlow, hadaptive, hspeed]

/-! ### The mode decisions of an arrival (R111, R118, R132) -/

/-- A decision that finds the mode it decides, or one that leaves the bend free, keeps the bend (R38). -/
theorem State.decideMode_bend_kept {s : State}
    (h : modeFor s.link.state s.sup.testActive s.sup.lowreqLevel = s.sup.mode
      ∨ (modeFor s.link.state s.sup.testActive s.sup.lowreqLevel).unbent = false) : s.decideMode.bend = s.bend := by
  rw [State.decideMode_bend, State.decideMode_mode, if_neg]
  rintro ⟨hne, hunbent⟩
  rcases h with h | h
  · exact hne h
  · exact absurd hunbent (Bool.eq_false_iff.1 h)

/-- The link state after an arrival: DOWN goes to SETTLING; otherwise it stays as it is or becomes UP (R132). -/
theorem LinkMonitor.arrival_state (b : BankCopy) (now : MsTime) (m : LinkMonitor) :
    (m.state = .down ∧ (m.arrival b now).state = .settling)
      ∨ (m.arrival b now).state = m.state ∨ (m.arrival b now).state = .up := by
  have hsettles : ∀ c : Bool, let l := if c then LinkState.up else .settling; l = .settling ∨ l = .up := by decide
  rw [LinkMonitor.arrival]
  split
  case h_1 h => exact .inl ⟨h, rfl⟩
  case h_2 h =>
    rw [h]
    exact .inr (hsettles _)
  case h_3 h => exact .inr (.inl rfl)
  case h_4 h => exact .inr (.inr rfl)

/-- TEST is decided only while UP (R111). -/
theorem modeFor_test {l : LinkState} {testActive lowreq : Bool} (h : modeFor l testActive lowreq = .test) : l = .up := by
  cases l with
  | up => rfl
  | lapsed => cases h
  | down => cases lowreq <;> cases h
  | settling => cases lowreq <;> cases h

/-- In DOWN and in SETTLING the mode is decided by the LOWREQ level alone, and alike (R111). -/
theorem State.modeLaw_down {s : State} (h : s.modeLaw = true) (hl : s.link.state = .down) :
    modeFor .settling s.sup.testActive s.sup.lowreqLevel = s.sup.mode := by
  obtain ⟨hin, hat, -, -⟩ := s.modeLaw_iff.1 h
  rw [hl] at hin
  cases hm : s.sup.mode with
  | fallback => rw [hm] at hat; simp [modeFor, show s.sup.lowreqLevel = true from hat]
  | dark => rw [hm] at hat; simp [modeFor, show s.sup.lowreqLevel = false by simpa [BeamMode.allowedAt] using hat]
  | normal => rw [hm] at hin; cases hin
  | hold => rw [hm] at hin; cases hin
  | test => rw [hm] at hin; cases hin

/-- A change of link state at an arrival leaves the bend: SETTLING has the mode of DOWN, and UP has NORMAL (R38, R111). -/
theorem State.withLink_arrival_bend {s : State} (h : s.modeLaw = true) {e : LinkEffect}
    (he : (s.link.state = .down ∧ e.link.state = .settling) ∨ e.link.state = s.link.state ∨ e.link.state = .up) :
    (s.withLink e).bend = s.bend := by
  rcases s.withLink_cases e with ⟨-, hw⟩ | ⟨hne, hw⟩ <;> rw [hw]
  · rfl
  · refine State.decideMode_bend_kept ?_
    show modeFor e.link.state s.sup.testActive s.sup.lowreqLevel = s.sup.mode
      ∨ (modeFor e.link.state s.sup.testActive s.sup.lowreqLevel).unbent = false
    rcases he with ⟨hdown, hsettling⟩ | hsame | hup
    · exact .inl (by rw [hsettling]; exact State.modeLaw_down h hdown)
    · exact absurd hsame hne
    · have hidle : s.sup.testActive = false := by
        rw [Bool.eq_false_iff]
        intro htest
        exact hne (hup.trans (State.modeLaw_up h htest).symm)
      exact .inr (by rw [hup, hidle]; rfl)

/-- After a change at the Link Monitor TEST stands only while UP (R111). -/
theorem State.withLink_test {s : State} (h : s.modeLaw = true) {e : LinkEffect} (ht : (s.withLink e).sup.mode = .test) :
    (s.withLink e).link.state = .up := by
  rcases s.withLink_cases e with ⟨hsame, hw⟩ | ⟨-, hw⟩ <;> rw [hw] at ht ⊢
  · obtain ⟨hin, -, -, -⟩ := s.modeLaw_iff.1 h
    have hmode : s.sup.mode = .test := ht
    have hup : s.link.state = .up := by simpa [hmode, BeamMode.allowedIn] using hin
    exact hsame.trans hup
  · rw [State.decideMode_mode] at ht
    exact modeFor_test ht

/-- The check of R118 ends a test or does nothing: it leaves every block but the Supervisor, the bend, the ports and the
flags. -/
theorem State.testSpeedCheck_frame (s : State) :
    s.testSpeedCheck.inReset = s.inReset ∧ s.testSpeedCheck.rx = s.rx ∧ s.testSpeedCheck.link = s.link
      ∧ s.testSpeedCheck.motion = s.motion ∧ s.testSpeedCheck.table = s.table ∧ s.testSpeedCheck.windows = s.windows
      ∧ s.testSpeedCheck.composer = s.composer ∧ s.testSpeedCheck.segments = s.segments
      ∧ s.testSpeedCheck.time = s.time ∧ s.testSpeedCheck.bank = s.bank ∧ s.testSpeedCheck.pending = s.pending
      ∧ s.testSpeedCheck.mgmt.queue = s.mgmt.queue := by
  rw [State.testSpeedCheck]
  split_ifs <;> exact ⟨rfl, rfl, rfl, rfl, rfl, rfl, rfl, rfl, rfl, rfl, rfl, rfl⟩

/-- A test that ends while UP gives NORMAL and leaves the bend (R117, R118). -/
theorem State.testSpeedCheck_bend {s : State} (h : s.sup.mode = .test → s.link.state = .up) :
    s.testSpeedCheck.bend = s.bend := by
  rw [State.testSpeedCheck]
  split_ifs with hends
  · refine State.decideMode_bend_kept (.inr ?_)
    show (modeFor s.link.state false s.sup.lowreqLevel).unbent = false
    rw [h hends.1]
    rfl
  · rfl

/-- Settles O8: the record by R25, and the rest by what the decisions of the arrival leave. -/
theorem motionReplacesRecord : Obligations.MotionReplacesRecord := by
  intro m s hr hlaw
  let u : State := { s with rx := s.rx.accepted (frameBytes classMotion (motionBytes m)), motion := motionOf m }
  let e : LinkEffect := { link := s.link.arrival s.bank.active s.time.msClock, mask := 0#16 }
  have hu : u.modeLaw = true := hlaw
  obtain ⟨-, hinReset, hrx, hmotion, htable, hwindows, hcomposer, hsegments, htime, hbank, hpending, hqueue, -⟩ :=
    u.withLink_frame e
  obtain ⟨kinReset, krx, -, kmotion, ktable, kwindows, kcomposer, ksegments, ktime, kbank, kpending, kqueue⟩ :=
    (u.withLink e).testSpeedCheck_frame
  have hbend : (u.withLink e).testSpeedCheck.bend = s.bend :=
    (State.testSpeedCheck_bend (State.withLink_test hu)).trans
      (State.withLink_arrival_bend hu (LinkMonitor.arrival_state _ _ _))
  have hassembled : (u.withLink e).testSpeedCheck.rx = u.rx := krx.trans hrx
  refine ⟨(u.withLink e).testSpeedCheck, by rw [exec, execMotionFrame, State.running_normal hr]; rfl, ?_,
    kinReset.trans (hinReset.trans hr), by rw [hassembled]; rfl, by rw [hassembled]; rfl, hbend, ktable.trans htable,
    kwindows.trans hwindows, kcomposer.trans hcomposer, ksegments.trans hsegments, ktime.trans htime, kbank.trans hbank,
    kpending.trans hpending, kqueue.trans hqueue⟩
  rw [kmotion, hmotion]
  exact motionOf_eq m

end Sys2Proof.Machine
end

section
/-! SUPPORT. The laws at the reset state (R39, R41, R75, R87, R97, R98, R111, R155, R161). -/

namespace Sys2Proof.Machine

open Sys2Proof

/-- The bank of a cold reset has passed validation (R147, R155). -/
theorem reset_activeValid : State.reset.bank.activeValid = true := by
  rw [TableBank.activeValid, State.reset, bankFault_defaults]
  rfl

/-- Every level of the reset state is 0, under a valid bank (R7, R19, R80, R87). -/
theorem reset_levelLaw : State.reset.levelLaw = true := by
  rw [State.levelLaw, reset_activeValid]
  decide

/-- The reset state has the counts and lengths that every reset gives, and four chip records without failed frames (R93). -/
theorem reset_rangeLaw : State.reset.rangeLaw = true :=
  State.rangeLaw_of (resetUnder_rangeLaw TableBank.cold false []) (hports := fun d _ => by cases d <;> decide)

/-- Settles O57: the validation of the defaults by R154's checks, and each other law at the reset values. -/
theorem lawsHoldAtReset : Obligations.LawsHoldAtReset :=
  ⟨by decide, by decide, by decide, State.bendLaw_of_zero rfl rfl fun h => absurd h Bool.false_ne_true, by decide, by decide,
    by decide, reset_activeValid, reset_levelLaw, by decide, by decide, reset_rangeLaw⟩

end Sys2Proof.Machine
end

section
/-! SUPPORT. The slots of the Track Table (R40, R41, R45 to R47): the ids of the tracks, the lowest slot with a property, and
the slot of greatest key. -/

namespace Sys2Proof.Machine

open Sys2Proof

/-! ### Object ids (R41) -/

theorem mem_trackIds {ts : List Track} {id : Nat} :
    id ∈ trackIds ts ↔ ∃ e ∈ ts, e.state ≠ .free ∧ e.objectId = id := by
  simp [trackIds, and_assoc]

/-- A track in a slot has its id among the ids. -/
theorem mem_trackIds_of_slot {ts : List Track} {i : Nat} {e : Track} (h : ts[i]? = some e) (he : e.state ≠ .free) :
    e.objectId ∈ trackIds ts :=
  mem_trackIds.2 ⟨e, List.mem_of_getElem? h, he, rfl⟩

/-- No id stands twice exactly where two slots never hold tracks of one id. -/
theorem trackIds_nodup_iff {ts : List Track} :
    (trackIds ts).Nodup ↔ ∀ (i j : Nat) (e f : Track), i ≠ j → ts[i]? = some e → ts[j]? = some f →
      e.state ≠ .free → f.state ≠ .free → e.objectId ≠ f.objectId := by
  rw [trackIds, List.nodup_iff_pairwise_ne, List.pairwise_map, List.pairwise_filter, List.pairwise_iff_getElem]
  simp only [decide_eq_true_eq]
  constructor
  · intro h i j e f hne hi hj he hf
    obtain ⟨hil, rfl⟩ := List.getElem?_eq_some_iff.1 hi
    obtain ⟨hjl, rfl⟩ := List.getElem?_eq_some_iff.1 hj
    rcases lt_or_gt_of_ne hne with hlt | hgt
    · exact h i j hil hjl hlt he hf
    · exact (h j i hjl hil hgt hf he).symm
  · intro h i j hi hj hlt he hf
    exact h i j _ _ hlt.ne (List.getElem?_eq_getElem hi) (List.getElem?_eq_getElem hj) he hf

/-- A slot may take an entry whose id no track in another slot holds. -/
theorem trackIds_set_nodup {ts : List Track} (h : (trackIds ts).Nodup) {k : Nat} {e : Track}
    (he : ∀ (j : Nat) (f : Track), j ≠ k → ts[j]? = some f → f.state ≠ .free → f.objectId ≠ e.objectId) :
    (trackIds (ts.set k e)).Nodup := by
  have hslot : ∀ (i : Nat) (g : Track), (ts.set k e)[i]? = some g → (i = k ∧ g = e) ∨ (i ≠ k ∧ ts[i]? = some g) := by
    intro i g hg
    rw [List.getElem?_set] at hg
    split_ifs at hg with hik hk
    · exact .inl ⟨hik.symm, (Option.some.inj hg).symm⟩
    · exact .inr ⟨Ne.symm hik, hg⟩
  refine trackIds_nodup_iff.2 fun i j f g hne hf hg hff hgf => ?_
  rcases hslot i f hf with ⟨rfl, rfl⟩ | ⟨hi, hfi⟩ <;> rcases hslot j g hg with ⟨rfl, rfl⟩ | ⟨hj, hgj⟩
  · exact absurd rfl hne
  · exact (he j g hj hgj hgf).symm
  · exact he i f hi hfi hff
  · exact trackIds_nodup_iff.1 h i j f g hne hfi hgj hff hgf

/-! ### The lowest slot (R46) -/

theorem firstSlot_eq_findIdx? (p : Track → Bool) (ts : List Track) : firstSlot p ts = ts.findIdx? p := by
  induction ts with
  | nil => rfl
  | cons t ts ih => rw [firstSlot, List.findIdx?_cons, ih]

theorem firstSlot_eq_none_iff {p : Track → Bool} {ts : List Track} : firstSlot p ts = none ↔ ∀ e ∈ ts, p e = false := by
  rw [firstSlot_eq_findIdx?, List.findIdx?_eq_none_iff]

theorem firstSlot_eq_some_iff {p : Track → Bool} {ts : List Track} {i : Nat} :
    firstSlot p ts = some i ↔
      (∃ e, ts[i]? = some e ∧ p e = true) ∧ ∀ (j : Nat) (f : Track), j < i → ts[j]? = some f → p f = false := by
  rw [firstSlot_eq_findIdx?, List.findIdx?_eq_some_iff_getElem]
  constructor
  · rintro ⟨hi, hp, hbefore⟩
    refine ⟨⟨_, List.getElem?_eq_getElem hi, hp⟩, fun j f hj hf => ?_⟩
    obtain ⟨hjl, rfl⟩ := List.getElem?_eq_some_iff.1 hf
    exact Bool.eq_false_iff.2 (hbefore j hj)
  · rintro ⟨⟨e, he, hp⟩, hbefore⟩
    obtain ⟨hi, rfl⟩ := List.getElem?_eq_some_iff.1 he
    exact ⟨hi, hp, fun j hj => Bool.eq_false_iff.1 (hbefore j _ hj (List.getElem?_eq_getElem (hj.trans hi)))⟩

/-! ### The track of an id (R45) -/

theorem Track.holds_iff (e : Track) (id : Nat) : e.holds id = true ↔ e.state ≠ .free ∧ e.objectId = id := by
  simp [Track.holds]

/-- No slot holds an id that is not among the ids. -/
theorem firstSlot_holds_eq_none {ts : List Track} {id : Nat} (h : id ∉ trackIds ts) :
    firstSlot (fun e => e.holds id) ts = none := by
  refine firstSlot_eq_none_iff.2 fun e he => Bool.eq_false_iff.2 fun hid => ?_
  obtain ⟨hne, heq⟩ := (e.holds_iff id).1 hid
  exact h (mem_trackIds.2 ⟨e, he, hne, heq⟩)

/-- An id that no slot holds is not among the ids. -/
theorem notMem_trackIds_of_firstSlot {ts : List Track} {id : Nat} (h : firstSlot (fun e => e.holds id) ts = none) :
    id ∉ trackIds ts := by
  intro hid
  obtain ⟨e, he, hne, heq⟩ := mem_trackIds.1 hid
  exact Bool.eq_false_iff.1 (firstSlot_eq_none_iff.1 h e he) ((e.holds_iff id).2 ⟨hne, heq⟩)

/-- Where no id stands twice, the slot of a track is the one that holds its id. -/
theorem firstSlot_holds_of_slot {ts : List Track} (h : (trackIds ts).Nodup) {i : Nat} {e : Track} (hi : ts[i]? = some e)
    (he : e.state ≠ .free) : firstSlot (fun f => f.holds e.objectId) ts = some i := by
  refine firstSlot_eq_some_iff.2 ⟨⟨e, hi, (e.holds_iff _).2 ⟨he, rfl⟩⟩, fun j f hj hf => Bool.eq_false_iff.2 fun hid => ?_⟩
  obtain ⟨hne, heq⟩ := (f.holds_iff _).1 hid
  exact trackIds_nodup_iff.1 h j i f e hj.ne hf hi hne he heq

/-! ### The greatest key (R47) -/

/-- Slot `i` holds an entry of key `k`, and no entry has a greater key or the same key in a lower slot. -/
def IsBest (key : Track → Option Nat) (ts : List Track) (i k : Nat) : Prop :=
  (∃ e, ts[i]? = some e ∧ key e = some k)
    ∧ ∀ (j : Nat) (f : Track) (l : Nat), ts[j]? = some f → key f = some l → l < k ∨ (l = k ∧ i ≤ j)

theorem IsBest.slot_unique {key : Track → Option Nat} {ts : List Track} {i j k l : Nat} (h : IsBest key ts i k)
    (h' : IsBest key ts j l) : i = j := by
  obtain ⟨⟨e, hi, he⟩, hbest⟩ := h
  obtain ⟨⟨f, hj, hf⟩, hbest'⟩ := h'
  have h1 := hbest j f l hj hf
  have h2 := hbest' i e k hi he
  omega

/-- Before an entry without a key, the best slot is the best of the rest. -/
theorem IsBest.cons_of_none {key : Track → Option Nat} {t : Track} {ts : List Track} {i k : Nat} (ht : key t = none)
    (h : IsBest key ts i k) : IsBest key (t :: ts) (i + 1) k := by
  refine ⟨h.1, fun j f l hj hl => ?_⟩
  cases j with
  | zero =>
    cases hj
    rw [ht] at hl
    cases hl
  | succ j =>
    have := h.2 j f l hj hl
    omega

/-- An entry of a lesser key than the best of the rest leaves it the best. -/
theorem IsBest.cons_of_lt {key : Track → Option Nat} {t : Track} {ts : List Track} {i k m : Nat} (ht : key t = some m)
    (hlt : m < k) (h : IsBest key ts i k) : IsBest key (t :: ts) (i + 1) k := by
  refine ⟨h.1, fun j f l hj hl => ?_⟩
  cases j with
  | zero =>
    cases hj
    rw [ht] at hl
    cases hl
    exact .inl hlt
  | succ j =>
    have := h.2 j f l hj hl
    omega

/-- The first entry is the best where no later key is greater. -/
theorem IsBest.head {key : Track → Option Nat} {t : Track} {ts : List Track} {k : Nat} (ht : key t = some k)
    (hrest : ∀ f ∈ ts, ∀ l, key f = some l → l ≤ k) : IsBest key (t :: ts) 0 k := by
  refine ⟨⟨t, rfl, ht⟩, fun j f l hj hl => ?_⟩
  cases j with
  | zero =>
    cases hj
    rw [ht] at hl
    cases hl
    exact .inr ⟨rfl, le_rfl⟩
  | succ j =>
    have := hrest f (List.mem_of_getElem? hj) l hl
    omega

/-- `bestSlot` answers the best slot, or that no entry has a key. -/
theorem bestSlot_spec (key : Track → Option Nat) (ts : List Track) :
    (bestSlot key ts = none ∧ ∀ e ∈ ts, key e = none) ∨ ∃ i k, bestSlot key ts = some (i, k) ∧ IsBest key ts i k := by
  induction ts with
  | nil => exact .inl ⟨rfl, fun e he => absurd he List.not_mem_nil⟩
  | cons t ts ih =>
    rcases ih with ⟨hnone, hkeys⟩ | ⟨i, k, hsome, hbest⟩
    · cases ht : key t with
      | none => exact .inl ⟨by simp [bestSlot, hnone, ht], List.forall_mem_cons.2 ⟨ht, hkeys⟩⟩
      | some m =>
        refine .inr ⟨0, m, by simp [bestSlot, hnone, ht], .head ht fun f hf l hl => ?_⟩
        rw [hkeys f hf] at hl
        cases hl
    · cases ht : key t with
      | none => exact .inr ⟨i + 1, k, by simp [bestSlot, hsome, ht], hbest.cons_of_none ht⟩
      | some m =>
        by_cases hle : k ≤ m
        · refine .inr ⟨0, m, by simp [bestSlot, hsome, ht, hle], .head ht fun f hf l hl => ?_⟩
          obtain ⟨j, hj⟩ := List.mem_iff_getElem?.1 hf
          have := hbest.2 j f l hj hl
          omega
        · exact .inr ⟨i + 1, k, by simp [bestSlot, hsome, ht, hle], hbest.cons_of_lt ht (by omega)⟩

/-- `bestSlot` answers the best slot where there is one. -/
theorem bestSlot_of_isBest {key : Track → Option Nat} {ts : List Track} {i k : Nat} (h : IsBest key ts i k) :
    (bestSlot key ts).map Prod.fst = some i := by
  rcases bestSlot_spec key ts with ⟨-, hkeys⟩ | ⟨j, l, hsome, hbest⟩
  · obtain ⟨⟨e, hi, he⟩, -⟩ := h
    rw [hkeys e (List.mem_of_getElem? hi)] at he
    cases he
  · rw [hsome, h.slot_unique hbest]
    rfl

/-- Without a key there is no best slot. -/
theorem bestSlot_eq_none {key : Track → Option Nat} {ts : List Track} (h : ∀ e ∈ ts, key e = none) :
    bestSlot key ts = none := by
  rcases bestSlot_spec key ts with ⟨hnone, -⟩ | ⟨i, k, -, ⟨⟨e, hi, he⟩, -⟩⟩
  · exact hnone
  · rw [h e (List.mem_of_getElem? hi)] at he
    cases he

end Sys2Proof.Machine
end

section
/-! SUPPORT. Reports and scene closes entry by entry (R43 to R49, R53 to R56): what a record gives, what a report does in each
case, and what a close does to an entry in each state. -/

namespace Sys2Proof.Machine

open Sys2Proof

/-! ### The check of a record (R43, R44) -/

/-- A class code names the class of its number (R127). -/
theorem code_of_objClassOf {code : Byte} {c : ObjClass} (h : objClassOf code = some c) : c.code = code.toNat := by
  rw [objClassOf] at h
  generalize code.toNat = n at h ⊢
  match n with
  | 0 | 1 | 2 | 3 => cases h; rfl
  | _ + 4 => cases h

/-- Codes from 4 name no class (R127). -/
theorem objClassOf_eq_none_iff (code : Byte) : objClassOf code = none ↔ 4 ≤ code.toNat := by
  rw [objClassOf]
  generalize code.toNat = n
  match n with
  | 0 | 1 | 2 | 3 => simp
  | _ + 4 => simp

/-- A record whose code names no class fails its check (R44). -/
theorem reportOf_of_no_class {raw : SceneReport} (h : objClassOf raw.classCode = none) : reportOf raw = none := by
  simp only [reportOf, h]

/-- A record whose code names a class fails its check by its id, its edges or its top, and otherwise gives its clamped
values (R43, R44). -/
theorem reportOf_of_class {raw : SceneReport} {c : ObjClass} (h : objClassOf raw.classCode = some c) :
    reportOf raw
      = if raw.objectId.toNat = 0 ∨ raw.objectId.toNat = 255 ∨ raw.right.toInt < raw.left.toInt
            ∨ (raw.presence.getLsbD 0 = true ∧ raw.top.toInt < raw.bottom.toInt) then none
        else some
          { objectId := raw.objectId.toNat, cls := c, left := raw.left.toInt, right := raw.right.toInt
            bottom := raw.bottom.toInt
            top := if raw.presence.getLsbD 0 = true then some raw.top.toInt else none
            rate := if raw.presence.getLsbD 1 = true then some (max (-3000) (min 3000 raw.rate.toInt)) else none
            distance := if raw.presence.getLsbD 2 = true then some (max 10 (min 5000 raw.distance.toNat)) else none
            confidence := raw.confidence.toNat % 16, captureAge := raw.captureAge.toNat } := by
  have h0 : raw.objectId = 0#8 ↔ raw.objectId.toNat = 0 := BitVec.toNat_inj.symm
  have h255 : raw.objectId = 255#8 ↔ raw.objectId.toNat = 255 := BitVec.toNat_inj.symm
  have htop : ((if raw.presence.getLsbD 0 = true then some raw.top.toInt else none).any
      fun t => decide (t < raw.bottom.toInt)) = true
      ↔ raw.presence.getLsbD 0 = true ∧ raw.top.toInt < raw.bottom.toInt := by
    cases raw.presence.getLsbD 0 <;> simp
  simp only [reportOf, h, h0, h255, htop, clampInt]

/-- A record fails its check by its id, its class code, its edges or its top (R44). -/
theorem reportOf_eq_none_iff (raw : SceneReport) :
    reportOf raw = none ↔ raw.objectId.toNat = 0 ∨ raw.objectId.toNat = 255 ∨ 4 ≤ raw.classCode.toNat
      ∨ raw.right.toInt < raw.left.toInt ∨ (raw.presence.getLsbD 0 = true ∧ raw.top.toInt < raw.bottom.toInt) := by
  cases hc : objClassOf raw.classCode with
  | none => simp [reportOf_of_no_class hc, (objClassOf_eq_none_iff _).1 hc]
  | some c =>
    have hlt : ¬ 4 ≤ raw.classCode.toNat := by
      rw [← objClassOf_eq_none_iff, hc]
      exact Option.some_ne_none c
    rw [reportOf_of_class hc, ite_eq_left_iff]
    simp only [reduceCtorEq, imp_false, not_not]
    tauto

/-- A checked report has an id of 1 to 254 (R44). -/
theorem reportOf_objectId {raw : SceneReport} {r : Report} (h : reportOf raw = some r) :
    1 ≤ r.objectId ∧ r.objectId ≤ 254 := by
  cases hc : objClassOf raw.classCode with
  | none =>
    rw [reportOf_of_no_class hc] at h
    cases h
  | some c =>
    rw [reportOf_of_class hc] at h
    split at h
    · cases h
    · rename_i hsound
      cases h
      have := raw.objectId.isLt
      dsimp only
      omega

/-- A record that fails its check is counted and discarded (R44, R51). -/
theorem takeReport_of_fault (b : BankCopy) (now : MsTime) (t : TrackTable) {raw : SceneReport} (h : reportOf raw = none) :
    takeReport b now t raw = ({ t with reportCount := min 255 (t.reportCount + 1) }, Flag.frameError.mask) := by
  simp only [takeReport, h]

/-- A record that passes its check is counted and applied (R45 to R49, R51). -/
theorem takeReport_of_report (b : BankCopy) (now : MsTime) (t : TrackTable) {raw : SceneReport} {r : Report}
    (h : reportOf raw = some r) :
    takeReport b now t raw = applyReport b now { t with reportCount := min 255 (t.reportCount + 1) } r := by
  simp only [takeReport, h]

/-! ### The slot of a new track (R46, R47) -/

theorem coastingKey_eq_some_iff (e : Track) (k : Nat) : coastingKey e = some k ↔ e.state = .coasting ∧ e.misses = k := by
  simp [coastingKey]

theorem tentativeKey_eq_some_iff (e : Track) (k : Nat) :
    tentativeKey e = some k ↔ e.state = .tentative ∧ 15 - e.confidence = k := by
  simp [tentativeKey]

/-- The COASTING entry with the most misses is evicted, the lowest slot among equals (R47). -/
theorem evictSlot_of_coasting {ts : List Track} {i k : Nat} (h : IsBest coastingKey ts i k) :
    evictSlot ts = some i := by
  have hbest := bestSlot_of_isBest h
  rw [evictSlot]
  cases hs : bestSlot coastingKey ts with
  | none =>
    rw [hs] at hbest
    cases hbest
  | some x =>
    rw [hs] at hbest
    exact hbest

/-- Without a COASTING entry a TENTATIVE one is evicted, or none (R47). -/
theorem evictSlot_of_no_coasting {ts : List Track} (h : ∀ e ∈ ts, e.state ≠ .coasting) :
    evictSlot ts = (bestSlot tentativeKey ts).map Prod.fst := by
  rw [evictSlot, bestSlot_eq_none fun e he => by rw [coastingKey, if_neg (h e he)]]

/-- A table of CONFIRMED entries alone has no entry to evict (R47). -/
theorem evictSlot_of_confirmed {ts : List Track} (h : ∀ e ∈ ts, e.state = .confirmed) : evictSlot ts = none := by
  rw [evictSlot_of_no_coasting fun e he => by rw [h e he]; decide,
    bestSlot_eq_none fun e he => by rw [tentativeKey, h e he]; rfl]
  rfl

/-- Without a FREE slot the slot of the entry evicted is taken (R47). -/
theorem slotForNew_of_no_free {ts : List Track} (h : ∀ e ∈ ts, e.state ≠ .free) : slotForNew ts = evictSlot ts := by
  rw [slotForNew, firstSlot_eq_none_iff.2 fun e he => decide_eq_false (h e he)]

theorem slotForNew_of_free {ts : List Track} {i : Nat} {e : Track} (hi : ts[i]? = some e) (he : e.state = .free)
    (hbefore : ∀ (j : Nat) (f : Track), j < i → ts[j]? = some f → f.state ≠ .free) : slotForNew ts = some i := by
  rw [slotForNew, firstSlot_eq_some_iff.2
    ⟨⟨e, hi, decide_eq_true he⟩, fun j f hj hf => decide_eq_false (hbefore j f hj hf)⟩]

/-- On a full table the COASTING entry with the most misses gives its slot, the lowest among equals (R47). -/
theorem slotForNew_of_most_missed {ts : List Track} {i : Nat} {e : Track} (hfull : ∀ f ∈ ts, f.state ≠ .free)
    (hi : ts[i]? = some e) (he : e.state = .coasting)
    (hmost : ∀ (j : Nat) (f : Track), ts[j]? = some f → f.state = .coasting →
      f.misses < e.misses ∨ (f.misses = e.misses ∧ i ≤ j)) : slotForNew ts = some i := by
  have hbest : IsBest coastingKey ts i e.misses := by
    refine ⟨⟨e, hi, (coastingKey_eq_some_iff _ _).2 ⟨he, rfl⟩⟩, fun j f k hj hk => ?_⟩
    obtain ⟨hf, rfl⟩ := (coastingKey_eq_some_iff _ _).1 hk
    exact hmost j f hj hf
  rw [slotForNew_of_no_free hfull, evictSlot_of_coasting hbest]

/-- On a full table without a COASTING entry the TENTATIVE entry with the lowest confidence gives its slot, the lowest among
equals (R47). -/
theorem slotForNew_of_least_confident {ts : List Track} {i : Nat} {e : Track} (hfull : ∀ f ∈ ts, f.state ≠ .free)
    (hnone : ∀ f ∈ ts, f.state ≠ .coasting) (hrange : ∀ f ∈ ts, f.confidence ≤ 15) (hi : ts[i]? = some e)
    (he : e.state = .tentative)
    (hleast : ∀ (j : Nat) (f : Track), ts[j]? = some f → f.state = .tentative →
      e.confidence < f.confidence ∨ (f.confidence = e.confidence ∧ i ≤ j)) : slotForNew ts = some i := by
  have hbest : IsBest tentativeKey ts i (15 - e.confidence) := by
    refine ⟨⟨e, hi, (tentativeKey_eq_some_iff _ _).2 ⟨he, rfl⟩⟩, fun j f k hj hk => ?_⟩
    obtain ⟨hf, rfl⟩ := (tentativeKey_eq_some_iff _ _).1 hk
    have hlower := hleast j f hj hf
    have hle := hrange f (List.mem_of_getElem? hj)
    omega
  rw [slotForNew_of_no_free hfull, evictSlot_of_no_coasting hnone, bestSlot_of_isBest hbest]

/-- A full table of CONFIRMED entries gives no slot (R47). -/
theorem slotForNew_of_confirmed {ts : List Track} (hfull : ∀ f ∈ ts, f.state ≠ .free)
    (h : ∀ f ∈ ts, f.state = .confirmed) : slotForNew ts = none := by
  rw [slotForNew_of_no_free hfull, evictSlot_of_confirmed h]

/-! ### What a report does (R45 to R49) -/

/-- A report of an id that a track holds updates that track (R45). -/
theorem applyReport_of_track (b : BankCopy) (now : MsTime) {t : TrackTable} {r : Report} {i : Nat} {e : Track}
    (h : firstSlot (fun f => f.holds r.objectId) t.tracks = some i) (hi : t.tracks[i]? = some e) :
    applyReport b now t r = ({ t with tracks := t.tracks.set i (e.update r now) }, 0#16) := by
  rw [applyReport, reportCase, h]
  dsimp only
  rw [List.modify_eq_set_getElem?, hi]
  rfl

/-- A report of an id that no track holds is ignored with too little confidence (R49). -/
theorem applyReport_of_low_confidence (b : BankCopy) (now : MsTime) {t : TrackTable} {r : Report}
    (h : r.objectId ∉ trackIds t.tracks) (hlow : r.confidence < createConfidence b r.cls) :
    applyReport b now t r = (t, 0#16) := by
  rw [applyReport, reportCase, firstSlot_holds_eq_none h]
  simp only [hlow, ↓reduceIte]

/-- A report of an id that no track holds creates a track where there is a slot for it (R46, R47). -/
theorem applyReport_of_slot (b : BankCopy) (now : MsTime) {t : TrackTable} {r : Report} {i : Nat}
    (h : r.objectId ∉ trackIds t.tracks) (henough : createConfidence b r.cls ≤ r.confidence)
    (hslot : slotForNew t.tracks = some i) :
    applyReport b now t r = ({ t with tracks := t.tracks.set i (Track.create r now) }, 0#16) := by
  rw [applyReport, reportCase, firstSlot_holds_eq_none h]
  simp only [henough.not_gt, hslot, ↓reduceIte]

/-- A report of an id that no track holds is dropped where there is no slot for it (R48). -/
theorem applyReport_of_no_slot (b : BankCopy) (now : MsTime) {t : TrackTable} {r : Report}
    (h : r.objectId ∉ trackIds t.tracks) (henough : createConfidence b r.cls ≤ r.confidence)
    (hslot : slotForNew t.tracks = none) :
    applyReport b now t r = ({ t with crowdedHold := crowdedHoldLoad b }, Flag.sceneCrowded.mask) := by
  rw [applyReport, reportCase, firstSlot_holds_eq_none h]
  simp only [henough.not_gt, hslot, ↓reduceIte]

/-- What a report can do: update the track of its id, create one where no track has its id, or keep every entry, dropped
with SCENE_CROWDED or ignored (R45 to R49). -/
theorem applyReport_cases (b : BankCopy) (now : MsTime) (t : TrackTable) (r : Report) :
    (∃ i e, t.tracks[i]? = some e ∧ e.state ≠ .free ∧ e.objectId = r.objectId
        ∧ applyReport b now t r = ({ t with tracks := t.tracks.set i (e.update r now) }, 0#16))
      ∨ (r.objectId ∉ trackIds t.tracks
        ∧ ∃ i, applyReport b now t r = ({ t with tracks := t.tracks.set i (Track.create r now) }, 0#16))
      ∨ applyReport b now t r = ({ t with crowdedHold := crowdedHoldLoad b }, Flag.sceneCrowded.mask)
      ∨ applyReport b now t r = (t, 0#16) := by
  cases hid : firstSlot (fun e => e.holds r.objectId) t.tracks with
  | some i =>
    obtain ⟨⟨e, hi, hholds⟩, -⟩ := firstSlot_eq_some_iff.1 hid
    obtain ⟨hne, heq⟩ := (e.holds_iff _).1 hholds
    exact .inl ⟨i, e, hi, hne, heq, applyReport_of_track b now hid hi⟩
  | none =>
    have hnew := notMem_trackIds_of_firstSlot hid
    rcases lt_or_ge r.confidence (createConfidence b r.cls) with hlow | henough
    · exact .inr (.inr (.inr (applyReport_of_low_confidence b now hnew hlow)))
    · cases hslot : slotForNew t.tracks with
      | some i => exact .inr (.inl ⟨hnew, i, applyReport_of_slot b now hnew henough hslot⟩)
      | none => exact .inr (.inr (.inl (applyReport_of_no_slot b now hnew henough hslot)))

/-! ### What a close does to an entry (R53, R55, R56) -/

section Close

variable {e : Track} (b : BankCopy)

theorem Track.close_of_free (h : e.state = .free) : e.close b = e := by
  simp only [Track.close, h, ↓reduceIte]

theorem Track.close_of_missed_tentative (hs : e.seen = false) (h : e.state = .tentative) :
    e.close b = Track.freeEntry := by
  simp [Track.close, h, hs]

theorem Track.close_of_missed_confirmed (hs : e.seen = false) (h : e.state = .confirmed) :
    e.close b = { e with state := .coasting, misses := min 15 (e.misses + 1) } := by
  simp [Track.close, h, hs]

/-- A COASTING entry not seen is freed above the coast limit of its class, and coasts on otherwise (R55). -/
theorem Track.close_of_missed_coasting (hs : e.seen = false) (h : e.state = .coasting) :
    e.close b
      = if min 15 (e.misses + 1) ≤ coastLimit b e.cls then { e with misses := min 15 (e.misses + 1) }
        else Track.freeEntry := by
  simp only [Track.close, h, hs, reduceCtorEq, Bool.false_eq_true, ↓reduceIte]
  split_ifs with hover hwithin hwithin
  · omega
  · rfl
  · rfl
  · omega

/-- A TENTATIVE entry seen is confirmed at the confirm hits of its class (R56). -/
theorem Track.close_of_seen_tentative (hs : e.seen = true) (h : e.state = .tentative) :
    e.close b
      = { e with seen := false, state := if confirmHits b e.cls ≤ e.hits then .confirmed else .tentative } := by
  simp [Track.close, h, hs]

/-- A CONFIRMED entry seen stays so, and a COASTING entry seen returns to it (R56). -/
theorem Track.close_of_seen_established (hs : e.seen = true) (h : e.state = .confirmed ∨ e.state = .coasting) :
    e.close b = { e with seen := false, state := .confirmed } := by
  rcases h with h | h <;> simp [Track.close, h, hs]

end Close

/-! ### A SCENE frame in its parts (R51 to R54) -/

/-- The frame truncates the open scene: its id is another one (R54). -/
def TrackTable.truncates (t : TrackTable) (id : Nat) : Bool := t.isOpen && t.sceneId != id

/-- The table in which a frame's reports are taken: that of the open scene where the frame continues it, and otherwise of a
scene opened for it, after the close of a scene of another id (R51, R54). -/
def TrackTable.sceneFor (b : BankCopy) (now : MsTime) (id : Nat) (t : TrackTable) : TrackTable :=
  let closed := if t.truncates id then t.close b now else t
  if closed.isOpen then closed else closed.openScene id

/-- A SCENE frame in its parts: the scene it belongs to, its reports, and its END. -/
theorem takeScene_eq (b : BankCopy) (now : MsTime) (p : ScenePayload) (t : TrackTable) :
    takeScene b now p t
      = { table :=
            if p.endMark then (takeReports b now (t.sceneFor b now p.sceneId.toNat) p.reports).1.close b now
            else (takeReports b now (t.sceneFor b now p.sceneId.toNat) p.reports).1
          mask := Flag.sceneTruncated.maskIf (t.truncates p.sceneId.toNat)
            ||| (takeReports b now (t.sceneFor b now p.sceneId.toNat) p.reports).2
          closed := t.truncates p.sceneId.toNat || p.endMark } :=
  rfl

section Scene

variable (b : BankCopy) (now : MsTime) {t : TrackTable} {id : Nat}

theorem TrackTable.truncates_of_same (h : t.sceneId = id) : t.truncates id = false := by
  simp [TrackTable.truncates, h]

theorem TrackTable.sceneFor_of_same (ho : t.isOpen = true) (h : t.sceneId = id) : t.sceneFor b now id = t := by
  simp [TrackTable.sceneFor, TrackTable.truncates_of_same h, ho]

theorem TrackTable.sceneFor_of_other (ho : t.isOpen = true) (h : t.sceneId ≠ id) :
    t.sceneFor b now id = (t.close b now).openScene id := by
  simp [TrackTable.sceneFor, TrackTable.truncates, TrackTable.close, ho, h]

theorem TrackTable.sceneFor_of_closed (ho : t.isOpen = false) : t.sceneFor b now id = t.openScene id := by
  simp [TrackTable.sceneFor, TrackTable.truncates, ho]

/-- What can stand before a frame's reports: the open scene of its id, one of another id just closed, or no scene. -/
theorem TrackTable.sceneFor_cases (t : TrackTable) (id : Nat) :
    (t.isOpen = true ∧ t.sceneId = id ∧ t.sceneFor b now id = t)
      ∨ (t.isOpen = true ∧ t.sceneId ≠ id ∧ t.sceneFor b now id = (t.close b now).openScene id)
      ∨ (t.isOpen = false ∧ t.sceneFor b now id = t.openScene id) := by
  cases ho : t.isOpen
  · exact .inr (.inr ⟨rfl, TrackTable.sceneFor_of_closed b now ho⟩)
  · by_cases h : t.sceneId = id
    · exact .inl ⟨rfl, h, TrackTable.sceneFor_of_same b now ho h⟩
    · exact .inr (.inl ⟨rfl, h, TrackTable.sceneFor_of_other b now ho h⟩)

end Scene

end Sys2Proof.Machine
end

section
/-! SUPPORT. The law of the Track Table (R40, R41): reports, scene closes and SCENE frames keep it, and every command does to the
table nothing but take a SCENE frame, clear it, count an output frame event, or reset it. -/

namespace Sys2Proof.Machine

open Sys2Proof

/-! ### The law in its parts -/

theorem TrackTable.law_iff (t : TrackTable) :
    t.law = true ↔ t.tracks.length = 24 ∧ (trackIds t.tracks).Nodup ∧ ∀ e ∈ t.tracks, e.entryLaw = true := by
  simp only [TrackTable.law, Bool.and_eq_true, decide_eq_true_eq, List.all_eq_true, and_assoc]

theorem Track.entryLaw_freeEntry : Track.freeEntry.entryLaw = true := by decide

theorem Track.entryLaw_iff {e : Track} (h : e.state ≠ .free) :
    e.entryLaw = true ↔ 1 ≤ e.objectId ∧ e.objectId ≤ 254 ∧ e.hits ≤ 15 ∧ e.misses ≤ 15
      ∧ (e.state = .coasting ∨ e.misses = 0) ∧ (e.seen = true → e.misses = 0) := by
  have himp : ∀ (a : Bool) (p : Prop) [Decidable p], (!a || decide p) = true ↔ (a = true → p) := by
    intro a p _
    cases a <;> simp
  simp only [Track.entryLaw, h, ↓reduceIte, Bool.and_eq_true, Bool.or_eq_true, decide_eq_true_eq, and_assoc,
    beq_eq_decide, himp]

/-- A slot may take an entry that keeps its own law and whose id no track in another slot holds. -/
theorem TrackTable.law_set {t : TrackTable} (h : t.law = true) {k : Nat} {e : Track} (he : e.entryLaw = true)
    (hid : ∀ (j : Nat) (f : Track), j ≠ k → t.tracks[j]? = some f → f.state ≠ .free → f.objectId ≠ e.objectId) :
    ({ t with tracks := t.tracks.set k e } : TrackTable).law = true := by
  obtain ⟨hlen, hnodup, hentries⟩ := t.law_iff.1 h
  refine (TrackTable.law_iff _).2 ⟨by rw [List.length_set, hlen], trackIds_set_nodup hnodup hid, fun f hf => ?_⟩
  rcases List.mem_or_eq_of_mem_set hf with hf | rfl
  · exact hentries f hf
  · exact he

/-! ### Reports (R43 to R49) -/

/-- The entry a report updates keeps its law: at most 15 hits, and no misses (R45). -/
theorem Track.update_entryLaw {e : Track} (h : e.entryLaw = true) (hne : e.state ≠ .free) (r : Report) (now : MsTime) :
    (e.update r now).entryLaw = true := by
  obtain ⟨hlow, hhigh, hhits, -, -, -⟩ := (Track.entryLaw_iff hne).1 h
  have hcount : (if e.seen then e.hits else min 15 (e.hits + 1)) ≤ 15 := by split_ifs <;> omega
  exact (Track.entryLaw_iff (e := e.update r now) hne).2
    ⟨hlow, hhigh, hcount, Nat.zero_le _, .inr rfl, fun _ => rfl⟩

/-- The entry a checked report creates meets the law (R44, R46). -/
theorem Track.create_entryLaw {r : Report} (h : 1 ≤ r.objectId ∧ r.objectId ≤ 254) (now : MsTime) :
    (Track.create r now).entryLaw = true :=
  (Track.entryLaw_iff (e := Track.create r now) TrackState.noConfusion).2
    ⟨h.1, h.2, Nat.one_le_ofNat, Nat.zero_le _, .inr rfl, fun _ => rfl⟩

/-- A checked report keeps the law: it updates the one track of its id, or creates one where no track has its id (R45 to
R49). -/
theorem applyReport_law (b : BankCopy) (now : MsTime) {t : TrackTable} {r : Report} (h : t.law = true)
    (hr : 1 ≤ r.objectId ∧ r.objectId ≤ 254) : (applyReport b now t r).1.law = true := by
  obtain ⟨-, hnodup, hentries⟩ := t.law_iff.1 h
  rcases applyReport_cases b now t r with ⟨i, e, hi, hne, -, heq⟩ | ⟨hnew, i, heq⟩ | heq | heq <;> rw [heq]
  · refine TrackTable.law_set h (Track.update_entryLaw (hentries e (List.mem_of_getElem? hi)) hne r now) ?_
    exact fun j f hj hf hfree => trackIds_nodup_iff.1 hnodup j i f e hj hf hi hfree hne
  · refine TrackTable.law_set h (Track.create_entryLaw hr now) fun j f _ hf hfree hid => ?_
    have hmem := mem_trackIds_of_slot hf hfree
    rw [hid] at hmem
    exact hnew hmem
  · exact h
  · exact h

theorem takeReport_law (b : BankCopy) (now : MsTime) {t : TrackTable} (h : t.law = true) (raw : SceneReport) :
    (takeReport b now t raw).1.law = true := by
  cases hr : reportOf raw with
  | none =>
    rw [takeReport_of_fault b now t hr]
    exact h
  | some r =>
    rw [takeReport_of_report b now t hr]
    exact applyReport_law b now h (reportOf_objectId hr)

theorem takeReports_law (b : BankCopy) (now : MsTime) {t : TrackTable} (h : t.law = true) (rs : List SceneReport) :
    (takeReports b now t rs).1.law = true := by
  induction rs generalizing t with
  | nil => exact h
  | cons raw rs ih => exact ih (takeReport_law b now h raw)

/-! ### Scene closes and SCENE frames (R51 to R56, R60) -/

/-- A close keeps an entry's law, and an entry not FREE after it was the track of its id before (R53, R55, R56). -/
theorem Track.close_entryLaw (b : BankCopy) {e : Track} (h : e.entryLaw = true) :
    (e.close b).entryLaw = true
      ∧ ((e.close b).state ≠ .free → e.state ≠ .free ∧ (e.close b).objectId = e.objectId) := by
  have hfreed : Track.freeEntry.entryLaw = true
      ∧ (Track.freeEntry.state ≠ .free → e.state ≠ .free ∧ Track.freeEntry.objectId = e.objectId) :=
    ⟨Track.entryLaw_freeEntry, fun hne => absurd rfl hne⟩
  by_cases hfree : e.state = .free
  · rw [Track.close_of_free b hfree]
    exact ⟨h, fun hne => ⟨hne, rfl⟩⟩
  obtain ⟨hlow, hhigh, hhits, -, -, hreported⟩ := (Track.entryLaw_iff hfree).1 h
  have hmissed : min 15 (e.misses + 1) ≤ 15 := min_le_left _ _
  cases hs : e.seen
  · have hunseen : ∀ p : Prop, e.seen = true → p := fun _ ht => absurd (hs.symm.trans ht) Bool.false_ne_true
    cases hstate : e.state with
    | free => exact absurd hstate hfree
    | tentative =>
      rw [Track.close_of_missed_tentative b hs hstate]
      exact hstate ▸ hfreed
    | confirmed =>
      rw [Track.close_of_missed_confirmed b hs hstate]
      exact ⟨(Track.entryLaw_iff TrackState.noConfusion).2
          ⟨hlow, hhigh, hhits, hmissed, .inl rfl, fun ht => hunseen _ ht⟩, fun _ => ⟨TrackState.noConfusion, rfl⟩⟩
    | coasting =>
      rw [Track.close_of_missed_coasting b hs hstate]
      split_ifs
      · exact ⟨(Track.entryLaw_iff (e := { e with misses := min 15 (e.misses + 1) }) hfree).2
            ⟨hlow, hhigh, hhits, hmissed, .inl hstate, hunseen _⟩,
          fun _ => ⟨TrackState.noConfusion, rfl⟩⟩
      · exact hstate ▸ hfreed
  · have hzero := hreported hs
    have hmisses : e.misses ≤ 15 := hzero.le.trans (Nat.zero_le _)
    cases hstate : e.state with
    | free => exact absurd hstate hfree
    | tentative =>
      rw [Track.close_of_seen_tentative b hs hstate]
      have hkept : (if confirmHits b e.cls ≤ e.hits then TrackState.confirmed else .tentative) ≠ .free := by
        split_ifs <;> exact TrackState.noConfusion
      exact ⟨(Track.entryLaw_iff hkept).2 ⟨hlow, hhigh, hhits, hmisses, .inr hzero, fun _ => hzero⟩,
        fun _ => ⟨TrackState.noConfusion, rfl⟩⟩
    | confirmed | coasting =>
      rw [Track.close_of_seen_established b hs (by simp [hstate])]
      exact ⟨(Track.entryLaw_iff TrackState.noConfusion).2
          ⟨hlow, hhigh, hhits, hmisses, .inr hzero, fun _ => hzero⟩,
        fun _ => ⟨TrackState.noConfusion, rfl⟩⟩

theorem TrackTable.close_law (b : BankCopy) (now : MsTime) {t : TrackTable} (h : t.law = true) :
    (t.close b now).law = true := by
  obtain ⟨hlen, hnodup, hentries⟩ := t.law_iff.1 h
  have hslot : ∀ (i : Nat) (g : Track), (t.tracks.map (Track.close b))[i]? = some g → g.state ≠ .free →
      ∃ e, t.tracks[i]? = some e ∧ e.state ≠ .free ∧ g.objectId = e.objectId := by
    intro i g hg hfree
    rw [List.getElem?_map, Option.map_eq_some_iff] at hg
    obtain ⟨e, he, rfl⟩ := hg
    exact ⟨e, he, (Track.close_entryLaw b (hentries e (List.mem_of_getElem? he))).2 hfree⟩
  refine (TrackTable.law_iff _).2 ⟨(List.length_map _).trans hlen, trackIds_nodup_iff.2 ?_, ?_⟩
  · intro i j f g hne hf hg hff hgf
    obtain ⟨e, he, hee, hfe⟩ := hslot i f hf hff
    obtain ⟨e', he', hee', hge'⟩ := hslot j g hg hgf
    rw [hfe, hge']
    exact trackIds_nodup_iff.1 hnodup i j e e' hne he he' hee hee'
  · intro f hf
    obtain ⟨e, he, rfl⟩ := List.mem_map.1 hf
    exact (Track.close_entryLaw b (hentries e he)).1

theorem TrackTable.sceneFor_law (b : BankCopy) (now : MsTime) (id : Nat) {t : TrackTable} (h : t.law = true) :
    (t.sceneFor b now id).law = true := by
  rcases t.sceneFor_cases b now id with ⟨-, -, heq⟩ | ⟨-, -, heq⟩ | ⟨-, heq⟩ <;> rw [heq]
  · exact h
  · exact TrackTable.close_law b now h
  · exact h

theorem takeScene_law (b : BankCopy) (now : MsTime) (p : ScenePayload) {t : TrackTable} (h : t.law = true) :
    (takeScene b now p t).table.law = true := by
  have htaken := takeReports_law b now (TrackTable.sceneFor_law b now p.sceneId.toNat h) p.reports
  rw [takeScene_eq]
  dsimp only
  split_ifs
  · exact TrackTable.close_law b now htaken
  · exact htaken

theorem TrackTable.empty_law : TrackTable.empty.law = true := by decide

theorem TrackTable.clear_law (t : TrackTable) : t.clear.law = true := TrackTable.empty_law

theorem TrackTable.frame_law {t : TrackTable} (h : t.law = true) : t.frame.law = true := h

/-! ### What most effects leave alone -/

theorem State.startReceived_table (s : State) : s.startReceived.table = s.table := by
  rw [State.startReceived]
  split_ifs <;> rfl

theorem State.frameFails_table (s : State) (cause : FrameFault) : (s.frameFails cause).table = s.table := by
  cases cause with
  | startInFrame => rfl
  | overflow => rfl
  | failedCheck data =>
    rw [State.frameFails]
    split_ifs <;> rfl

theorem State.withLink_table (s : State) (e : LinkEffect) : (s.withLink e).table = s.table := by
  rcases s.withLink_cases e with ⟨-, h⟩ | ⟨-, h⟩ <;> rw [h] <;> rfl

theorem State.squelched_table (s : State) : s.squelched.table = s.table := by
  rw [State.squelched, State.withLink_table]
  split_ifs <;> rfl

theorem State.motionArrives_table (s : State) (m : MotionPayload) : (s.motionArrives m).table = s.table := by
  obtain ⟨-, -, -, -, htable, -⟩ := State.testSpeedCheck_frame
    (({ s with rx := s.rx.accepted (frameBytes classMotion (motionBytes m)), motion := motionOf m } : State).withLink
      { link := s.link.arrival s.bank.active s.time.msClock, mask := 0#16 })
  exact htable.trans (State.withLink_table _ _)

theorem State.patternFrame_table (s : State) (p : PatternPayload) : (s.patternFrame p).table = s.table := by
  rw [State.patternFrame]
  split
  · split_ifs <;> rfl
  · rfl

theorem State.lowreqLineTo_table (s : State) (active : Bool) : (s.lowreqLineTo active).table = s.table := by
  rw [State.lowreqLineTo]
  split_ifs <;> rfl

theorem State.lowreqTaken_table (s : State) : s.lowreqTaken.table = s.table := by
  rw [State.lowreqTaken]
  split <;> rfl

theorem State.Admits.table {s t : State} (h : s.Admits t) : t.table = s.table := by
  obtain ⟨added, status, report, ports, rfl, -⟩ := h
  rfl

theorem State.busEvent_table (s : State) (d : Side) (act : BankCopy → Bool → Port → PortEffect) :
    (s.busEvent d act).table = s.table :=
  (State.admitClaims_admits _).table

theorem State.strobeEnds_table (s : State) : s.strobeEnds.table = s.table := by
  rw [State.strobeEnds]
  split_ifs <;> rfl

theorem State.completeComposition_table (s : State) : s.completeComposition.table = s.table := by
  obtain ⟨-, -, -, -, -, htable, -⟩ := s.completeComposition_frame
  exact htable

/-- An output frame event counts down the crowded hold and does nothing else to the table (R50). -/
theorem State.outputFrameEvent_table (s : State) (cause : FrameCause) :
    (s.outputFrameEvent cause).table = s.table.frame := by
  obtain ⟨-, -, -, htable, -⟩ := s.atDecisions_frame cause
  have hdecisions : (s.atDecisions cause).frameDecisions.table = (s.atDecisions cause).table.frame := rfl
  rw [s.outputFrameEvent_eq, (State.statusAtEvent_admits _ _).table, hdecisions, htable]

/-! ### MANAGE commands -/

/-- A MANAGE record leaves the table alone where its command does, whatever its frame (R158). -/
theorem State.manageRecord_table {run : List Byte → State → CommandEffect}
    (hrun : ∀ params u, (run params u).state.table = u.table) (s : State) (code : Byte) (r : ManageRecord) :
    (s.manageRecord code r run).table = s.table := by
  refine State.manageRecord_keeps (P := fun u => u.table = s.table) (fun u tag hu => ?_) (fun _ _ hu => hu)
    (fun _ _ hu => hu) (fun params u hu => (hrun params u).trans hu) rfl code r
  rw [State.openFrame]
  split <;> exact hu

/-- A command without parameters leaves the table alone where its effect does. -/
theorem withoutParams_table {run : State → CommandEffect} (hrun : ∀ u, (run u).state.table = u.table) (params : List Byte)
    (s : State) : (withoutParams run params s).state.table = s.table := by
  rw [withoutParams]
  split
  · rfl
  · exact hrun s

theorem tableWriteCommand_table (params : List Byte) (s : State) :
    (tableWriteCommand params s).state.table = s.table := by
  rw [tableWriteCommand]
  split
  · rfl
  · split_ifs <;> rfl

theorem tableReadCommand_table (params : List Byte) (s : State) : (tableReadCommand params s).state.table = s.table := by
  rw [tableReadCommand]
  split
  · rfl
  · split_ifs <;> rfl

theorem statusNowCommand_table : ∀ params s, (statusNowCommand params s).state.table = s.table :=
  withoutParams_table fun _ => (State.admitClaims_admits _).table

theorem flagClearCommand_table (params : List Byte) (s : State) : (flagClearCommand params s).state.table = s.table := by
  rw [flagClearCommand]
  split <;> rfl

theorem frameAlignCommand_table (params : List Byte) (s : State) :
    (frameAlignCommand params s).state.table = s.table := by
  rw [frameAlignCommand]
  split
  · rfl
  · split_ifs <;> rfl

theorem testEnterCommand_table (params : List Byte) (s : State) : (testEnterCommand params s).state.table = s.table := by
  rw [testEnterCommand]
  split
  · rfl
  · split_ifs <;> rfl

theorem testExitCommand_table : ∀ params s, (testExitCommand params s).state.table = s.table := by
  refine withoutParams_table fun u => ?_
  dsimp only
  split_ifs <;> rfl

theorem portCommand_table (act : BankCopy → Port → Port) (params : List Byte) (s : State) :
    (portCommand act params s).state.table = s.table := by
  rw [portCommand]
  split
  · rfl
  · split
    · rfl
    · split_ifs <;> rfl

theorem driverPassCommand_table (params : List Byte) (s : State) :
    (driverPassCommand params s).state.table = s.table := by
  rw [driverPassCommand]
  split
  · rfl
  · split
    · rfl
    · split_ifs <;> rfl

/-- SCENE CLEAR clears the table where it is executed with its parameters, and leaves it alone otherwise (R60, R159). -/
theorem State.manageRecord_sceneClear_table (s : State) (code : Byte) (r : ManageRecord) :
    (s.manageRecord code r sceneClearCommand).table = s.table
      ∨ (s.manageRecord code r sceneClearCommand).table = s.table.clear := by
  refine State.manageRecord_keeps (P := fun u => u.table = s.table ∨ u.table = s.table.clear) (fun u tag hu => ?_)
    (fun _ _ hu => hu) (fun _ _ hu => hu) (fun params u hu => ?_) (.inl rfl) code r
  · rw [State.openFrame]
    split <;> exact hu
  · have hclear : u.table.clear = s.table.clear := by
      rcases hu with hu | hu
      · rw [hu]
      · rw [hu]
        rfl
    rw [sceneClearCommand, withoutParams]
    split
    · exact hu
    · exact .inr hclear

/-! ### Every command and every step -/

/-- What a command can do to the Track Table: nothing, take a SCENE frame, clear it, count an output frame event, or reset
it (R51 to R54, R50, R60, R61). -/
inductive State.TableEffect (s : State) : Instr → TrackTable → Prop
  | kept {c : Instr} : TableEffect s c s.table
  | scene (p : ScenePayload) : TableEffect s (.sceneFrame p) (takeScene s.bank.active s.time.msClock p s.table).table
  | cleared (r : ManageRecord) : TableEffect s (.sceneClear r) s.table.clear
  | event {c : Instr} (hc : c = .frameTimerExpiry ∨ ∃ e, c = .fsyncEdge e) : TableEffect s c s.table.frame
  | reset {c : Instr} (hc : c = .coldReset ∨ c = .upstreamFrameSent ∨ c = .warmResetTakesEffect) :
      TableEffect s c TrackTable.empty

theorem State.TableEffect.of_eq {s : State} {c : Instr} {t : TrackTable} (h : t = s.table) : s.TableEffect c t :=
  h ▸ .kept

/-- A command that does nothing under RESET has the effect on the table that it has outside RESET. -/
theorem State.running_tableEffect {s : State} {c : Instr} {f : State → State} (h : s.TableEffect c (f s).table) :
    s.TableEffect c (s.running f).table :=
  State.running_keeps (P := fun u => s.TableEffect c u.table) .kept h

theorem State.running_table {s : State} {c : Instr} {f : State → State} (h : (f s).table = s.table) :
    s.TableEffect c (s.running f).table :=
  State.running_tableEffect (.of_eq h)

theorem State.sceneFrame_tableEffect (s : State) (p : ScenePayload) :
    s.TableEffect (.sceneFrame p) (if p.framed then s.sceneArrives p else s.frameDiscarded false).table := by
  split_ifs
  · exact .scene p
  · exact .kept

theorem State.sceneClear_tableEffect (s : State) (code : Byte) (r : ManageRecord) :
    s.TableEffect (.sceneClear r) (s.manageRecord code r sceneClearCommand).table := by
  rcases s.manageRecord_sceneClear_table code r with h | h <;> rw [h]
  · exact .kept
  · exact .cleared r

theorem State.headSent_tableEffect (s : State) : s.TableEffect .upstreamFrameSent s.headSent.table := by
  rcases s.headSent_cases with ⟨-, h⟩ | ⟨f, rest, -, -, h⟩ | ⟨f, rest, -, -, h⟩ <;> rw [h]
  · exact .kept
  · exact .reset (.inr (.inl rfl))
  · exact .of_eq (State.admitClaims_admits _).table

theorem State.warmResetDue_tableEffect (s : State) : s.TableEffect .warmResetTakesEffect s.warmResetDue.table := by
  rw [State.warmResetDue]
  split_ifs
  · exact .reset (.inr (.inr rfl))
  · exact .kept

theorem State.timerExpiry_tableEffect (s : State) : s.TableEffect .frameTimerExpiry s.timerExpiry.table := by
  rw [State.timerExpiry, State.outputFrameEvent_table]
  exact .event (.inl rfl)

theorem State.syncEdgeArrives_tableEffect (s : State) (edge : SyncEdge) :
    s.TableEffect (.fsyncEdge edge) (s.syncEdgeArrives edge).table := by
  rw [State.syncEdgeArrives]
  split_ifs
  · rw [State.outputFrameEvent_table]
    exact .event (.inr ⟨edge, rfl⟩)
  · exact .kept
  · exact .kept

/-- Every command has a next state, and one of these effects on the table. -/
theorem exec_tableEffect (c : Instr) (s : State) : ∃ t, exec c s = .next t ∧ s.TableEffect c t.table := by
  have hmanage : ∀ (c : Instr) (code : Byte) (r : ManageRecord) {run : List Byte → State → CommandEffect},
      (∀ params u, (run params u).state.table = u.table) →
      s.TableEffect c (s.running fun u => u.manageRecord code r run).table :=
    fun c code r _ hrun => State.running_table (State.manageRecord_table hrun s code r)
  cases c with
  | coldReset => exact ⟨_, rfl, .reset (.inl rfl)⟩
  | resetEnds =>
    refine ⟨_, rfl, .of_eq ?_⟩
    split_ifs <;> rfl
  | lowreqEdge active => exact ⟨_, rfl, .of_eq (s.lowreqLineTo_table active)⟩
  | lowreqLevelChange => exact ⟨_, rfl, State.running_table s.lowreqTaken_table⟩
  | lineSquelch => exact ⟨_, rfl, State.running_table s.squelched_table⟩
  | linkFrameError cause => exact ⟨_, rfl, State.running_table (s.frameFails_table cause)⟩
  | startSymbol => exact ⟨_, rfl, State.running_table s.startReceived_table⟩
  | motionFrame m => exact ⟨_, rfl, State.running_table (s.motionArrives_table m)⟩
  | sceneFrame p => exact ⟨_, rfl, State.running_tableEffect (s.sceneFrame_tableEffect p)⟩
  | patternFrame p => exact ⟨_, rfl, State.running_table (s.patternFrame_table p)⟩
  | lapseExpiry => exact ⟨_, rfl, State.running_table (s.withLink_table _)⟩
  | lossExpiry => exact ⟨_, rfl, State.running_table (s.withLink_table _)⟩
  | tableWrite r => exact ⟨_, rfl, hmanage _ _ r tableWriteCommand_table⟩
  | tableRead r => exact ⟨_, rfl, hmanage _ _ r tableReadCommand_table⟩
  | commit r => exact ⟨_, rfl, hmanage _ _ r (withoutParams_table fun _ => rfl)⟩
  | discard r => exact ⟨_, rfl, hmanage _ _ r (withoutParams_table fun _ => rfl)⟩
  | statusNow r => exact ⟨_, rfl, hmanage _ _ r statusNowCommand_table⟩
  | flagClear r => exact ⟨_, rfl, hmanage _ _ r flagClearCommand_table⟩
  | sceneClear r => exact ⟨_, rfl, State.running_tableEffect (s.sceneClear_tableEffect _ r)⟩
  | frameAlign r => exact ⟨_, rfl, hmanage _ _ r frameAlignCommand_table⟩
  | testEnter r => exact ⟨_, rfl, hmanage _ _ r testEnterCommand_table⟩
  | testExit r => exact ⟨_, rfl, hmanage _ _ r testExitCommand_table⟩
  | portHalt r => exact ⟨_, rfl, hmanage _ _ r (portCommand_table _)⟩
  | portStop r => exact ⟨_, rfl, hmanage _ _ r (portCommand_table _)⟩
  | portResume r => exact ⟨_, rfl, hmanage _ _ r (portCommand_table _)⟩
  | driverPass r => exact ⟨_, rfl, hmanage _ _ r driverPassCommand_table⟩
  | warmReset r => exact ⟨_, rfl, hmanage _ _ r (withoutParams_table fun _ => rfl)⟩
  | unknownCommand code r => exact ⟨_, rfl, hmanage _ code r fun _ _ => rfl⟩
  | upstreamFrameSent => exact ⟨_, rfl, State.running_tableEffect s.headSent_tableEffect⟩
  | queueClaimEntry => exact ⟨_, rfl, State.running_table s.admitClaims_admits.table⟩
  | warmResetTakesEffect => exact ⟨_, rfl, State.running_tableEffect s.warmResetDue_tableEffect⟩
  | frameTimerExpiry => exact ⟨_, rfl, State.running_tableEffect s.timerExpiry_tableEffect⟩
  | fsyncEdge edge => exact ⟨_, rfl, State.running_tableEffect (s.syncEdgeArrives_tableEffect edge)⟩
  | strobeEnd => exact ⟨_, rfl, State.running_table s.strobeEnds_table⟩
  | msClockTick => exact ⟨_, rfl, State.running_table rfl⟩
  | compositionComplete => exact ⟨_, rfl, State.running_table s.completeComposition_table⟩
  | segmentWriteAck a => exact ⟨_, rfl, State.running_table (s.busEvent_table _ _)⟩
  | registerAck a => exact ⟨_, rfl, State.running_table (s.busEvent_table _ _)⟩
  | nak a => exact ⟨_, rfl, State.running_table (s.busEvent_table _ _)⟩
  | replyTimeout d => exact ⟨_, rfl, State.running_table (s.busEvent_table _ _)⟩

/-- Each of these effects keeps the law. -/
theorem State.TableEffect.law {s : State} {c : Instr} {t : TrackTable} (ht : s.TableEffect c t)
    (h : s.table.law = true) : t.law = true := by
  cases ht with
  | kept => exact h
  | scene p => exact takeScene_law _ _ p h
  | cleared r => exact s.table.clear_law
  | event _ => exact TrackTable.frame_law h
  | reset _ => exact TrackTable.empty_law

/-- Settles O51: every command has one of the effects on the table that keep the law, and neither the queue of commands nor a
tick touches it. -/
theorem stepKeepsTrackLaw : Obligations.StepKeepsTrackLaw := fun _ _ h hst =>
  step_keeps (P := fun s => s.table.law = true) (fun _ _ hs => hs) (fun _ _ hs => hs)
    (fun c s hs => (exec_tableEffect c s).imp fun _ ⟨hx, he⟩ => ⟨hx, he.law hs⟩) h hst

end Sys2Proof.Machine
end

section
/-! SUPPORT. SCENE_FRAME (R45 to R56): what an accepted frame leaves of the state, a scene in one frame and in two, the close of
a scene, and the cases of a record and its report. -/

namespace Sys2Proof.Machine

open Sys2Proof

/-! ### An accepted frame -/

theorem exec_sceneFrame_of_framed {p : ScenePayload} {s : State} (hr : s.inReset = false) (hf : p.framed = true) :
    exec (.sceneFrame p) s = .next (s.sceneArrives p) := by
  rw [exec, execSceneFrame, State.running_normal hr, if_pos hf]

/-- Reports leave the open-scene record but for its count, and the number of slots. -/
theorem takeReports_frame (b : BankCopy) (now : MsTime) (t : TrackTable) (rs : List SceneReport) :
    (takeReports b now t rs).1.isOpen = t.isOpen ∧ (takeReports b now t rs).1.sceneId = t.sceneId
      ∧ (takeReports b now t rs).1.lastScene = t.lastScene
      ∧ (takeReports b now t rs).1.tracks.length = t.tracks.length := by
  induction rs generalizing t with
  | nil => exact ⟨rfl, rfl, rfl, rfl⟩
  | cons raw rs ih =>
    obtain ⟨ho, hid, hlast, -, hlen⟩ := takeReport_frame b now t raw
    obtain ⟨ho', hid', hlast', hlen'⟩ := ih (takeReport b now t raw).1
    exact ⟨ho'.trans ho, hid'.trans hid, hlast'.trans hlast, hlen'.trans hlen⟩

/-- Each record is counted, up to 255 (R51, R52). -/
theorem takeReports_count (b : BankCopy) (now : MsTime) (t : TrackTable) (rs : List SceneReport) (h : t.reportCount ≤ 255) :
    (takeReports b now t rs).1.reportCount = min 255 (t.reportCount + rs.length) := by
  induction rs generalizing t with
  | nil => exact (min_eq_right h).symm
  | cons raw rs ih =>
    obtain ⟨-, -, -, hcount, -⟩ := takeReport_frame b now t raw
    have hrest := ih (takeReport b now t raw).1 (hcount.le.trans (min_le_left _ _))
    rw [takeReports]
    dsimp only
    rw [hrest, hcount, List.length_cons]
    omega

/-- The open-scene record before a frame's reports (R51, R54). -/
theorem TrackTable.sceneFor_frame (b : BankCopy) (now : MsTime) (t : TrackTable) (id : Nat) :
    (t.sceneFor b now id).isOpen = true ∧ (t.sceneFor b now id).sceneId = id
      ∧ (t.sceneFor b now id).lastScene = (if t.truncates id = true then some now else t.lastScene)
      ∧ (t.sceneFor b now id).reportCount
          = (if (t.isOpen && decide (t.sceneId = id)) = true then t.reportCount else 0)
      ∧ (t.sceneFor b now id).tracks.length = t.tracks.length := by
  rcases t.sceneFor_cases b now id with ⟨ho, hid, heq⟩ | ⟨ho, hid, heq⟩ | ⟨ho, heq⟩ <;> rw [heq]
  · simp [ho, hid, TrackTable.truncates]
  · simp [ho, hid, TrackTable.truncates, TrackTable.close, TrackTable.openScene]
  · simp [ho, TrackTable.truncates, TrackTable.openScene]

/-- The open-scene record after a frame, and the number of slots (R51 to R54). -/
theorem takeScene_frame (b : BankCopy) (now : MsTime) (p : ScenePayload) (t : TrackTable) (h : t.reportCount ≤ 255) :
    (takeScene b now p t).table.isOpen = !p.endMark ∧ (takeScene b now p t).table.sceneId = p.sceneId.toNat
      ∧ (takeScene b now p t).table.reportCount
          = min 255 ((if (t.isOpen && decide (t.sceneId = p.sceneId.toNat)) = true then t.reportCount else 0)
              + p.reports.length)
      ∧ (takeScene b now p t).table.lastScene
          = (if (t.truncates p.sceneId.toNat || p.endMark) = true then some now else t.lastScene)
      ∧ (takeScene b now p t).table.tracks.length = t.tracks.length := by
  obtain ⟨ho, hid, hlast, hcount, hlen⟩ := t.sceneFor_frame b now p.sceneId.toNat
  have hle : (t.sceneFor b now p.sceneId.toNat).reportCount ≤ 255 := by
    rw [hcount]
    split_ifs
    · exact h
    · exact Nat.zero_le _
  obtain ⟨ho', hid', hlast', hlen'⟩ := takeReports_frame b now (t.sceneFor b now p.sceneId.toNat) p.reports
  have hcount' := takeReports_count b now _ p.reports hle
  rw [takeScene_eq, ← hcount]
  cases p.endMark
  · exact ⟨ho'.trans ho, hid'.trans hid, hcount', by rw [Bool.or_false]; exact hlast'.trans hlast, hlen'.trans hlen⟩
  · exact ⟨rfl, hid'.trans hid, hcount', by rw [Bool.or_true]; rfl, (List.length_map _).trans (hlen'.trans hlen)⟩

/-- A report sets FRAME_ERROR where its record fails the check, and no other flag but SCENE_CROWDED (R44, R48). -/
theorem takeReport_mask (b : BankCopy) (now : MsTime) (t : TrackTable) (raw : SceneReport) :
    (takeReport b now t raw).2.getLsbD Flag.frameError.bit = (reportOf raw).isNone
      ∧ (takeReport b now t raw).2.getLsbD Flag.sceneTruncated.bit = false := by
  cases hr : reportOf raw with
  | none => simp [takeReport_of_fault b now t hr, Flag.mask_bit]
  | some r =>
    rw [takeReport_of_report b now t hr]
    rcases applyReport_cases b now { t with reportCount := min 255 (t.reportCount + 1) } r with
      ⟨i, e, -, -, -, heq⟩ | ⟨-, i, heq⟩ | heq | heq <;> rw [heq] <;> simp [Flag.mask_bit]

theorem takeReports_mask (b : BankCopy) (now : MsTime) (t : TrackTable) (rs : List SceneReport) :
    (takeReports b now t rs).2.getLsbD Flag.frameError.bit = rs.any (fun r => (reportOf r).isNone)
      ∧ (takeReports b now t rs).2.getLsbD Flag.sceneTruncated.bit = false := by
  induction rs generalizing t with
  | nil => simp [takeReports]
  | cons raw rs ih =>
    obtain ⟨herror, htruncated⟩ := takeReport_mask b now t raw
    obtain ⟨herror', htruncated'⟩ := ih (takeReport b now t raw).1
    rw [takeReports, List.any_cons, ← herror, ← herror']
    dsimp only
    rw [BitVec.getLsbD_or, BitVec.getLsbD_or, htruncated, htruncated']
    exact ⟨rfl, rfl⟩

/-- The flags of a frame: SCENE_TRUNCATED where it truncates a scene, FRAME_ERROR where a record fails its check (R44, R54). -/
theorem takeScene_mask (b : BankCopy) (now : MsTime) (p : ScenePayload) (t : TrackTable) :
    (takeScene b now p t).mask.getLsbD Flag.sceneTruncated.bit = t.truncates p.sceneId.toNat
      ∧ (takeScene b now p t).mask.getLsbD Flag.frameError.bit = p.reports.any (fun r => (reportOf r).isNone) := by
  obtain ⟨herror, htruncated⟩ := takeReports_mask b now (t.sceneFor b now p.sceneId.toNat) p.reports
  rw [takeScene_eq]
  dsimp only
  rw [BitVec.getLsbD_or, BitVec.getLsbD_or, Flag.maskIf_bit, Flag.maskIf_bit, herror, htruncated]
  simp

/-- Settles O13: the open-scene record and the flags of an accepted frame, and the discard of an ill-framed one. -/
theorem sceneFrameOpensAndCloses : Obligations.SceneFrameOpensAndCloses := by
  refine ⟨fun p s hr hcount hf => ?_, fun p s hr hf => ?_⟩
  · obtain ⟨ho, hid, hreports, hlast, hlen⟩ := takeScene_frame s.bank.active s.time.msClock p s.table hcount
    obtain ⟨htruncated, herror⟩ := takeScene_mask s.bank.active s.time.msClock p s.table
    have htruncates : s.table.truncates p.sceneId.toNat
        = (s.table.isOpen && decide (s.table.sceneId ≠ p.sceneId.toNat)) := by
      rw [TrackTable.truncates, bne, beq_eq_decide, decide_not]
    rw [htruncates] at hlast htruncated
    refine ⟨s.sceneArrives p, exec_sceneFrame_of_framed hr hf, ho, hid, hreports, hlast, hlen, ?_, ?_, ?_, hr, rfl, rfl, rfl,
      rfl, rfl, rfl, rfl, rfl, rfl, rfl, rfl, rfl⟩
    · rw [← htruncates]
      rfl
    · rw [State.sceneArrives, State.raise_flag, htruncated]
      rfl
    · rw [State.sceneArrives, State.raise_flag, herror]
      rfl
  · rw [exec, execSceneFrame, State.running_normal hr, if_neg (Bool.eq_false_iff.1 hf)]
    rfl

/-! ### A scene in two frames (R45, R52, R53) -/

/-- Two raises in turn are one of both masks (R163). -/
theorem Management.raise_raise (m : Management) (enable k l : Word) :
    (m.raise enable k).raise enable l = m.raise enable (k ||| l) := by
  have hrequest : ((k ||| l) &&& enable != 0#16) = (k &&& enable != 0#16 || l &&& enable != 0#16) := by
    rw [BitVec.and_or_distrib_right, Bool.eq_iff_iff]
    simp only [bne_iff_ne, Bool.or_eq_true, ne_eq, BitVec.or_eq_zero_iff, not_and_or]
  simp only [Management.raise, BitVec.or_assoc, Bool.or_assoc, hrequest]

/-- A frame with END clear and a frame of the same scene do to the table what one frame with their reports in order does, and
set the same flags (R45, R52, R53). -/
theorem takeScene_append (b : BankCopy) (now : MsTime) {p q r : ScenePayload} (t : TrackTable) (hid : p.sceneId = q.sceneId)
    (hrid : r.sceneId = p.sceneId) (hend : p.endMark = false) (hrend : r.endMark = q.endMark)
    (hreports : r.reports = p.reports ++ q.reports) :
    takeScene b now r t
      = { table := (takeScene b now q (takeScene b now p t).table).table
          mask := (takeScene b now p t).mask ||| (takeScene b now q (takeScene b now p t).table).mask
          closed := (takeScene b now p t).closed || (takeScene b now q (takeScene b now p t).table).closed } := by
  obtain ⟨hsome, hscene, -⟩ := t.sceneFor_frame b now p.sceneId.toNat
  obtain ⟨hopen', hscene', -⟩ := takeReports_frame b now (t.sceneFor b now p.sceneId.toNat) p.reports
  have hsame := hscene'.trans hscene
  have hfirst : (takeScene b now p t).table = (takeReports b now (t.sceneFor b now p.sceneId.toNat) p.reports).1 := by
    rw [takeScene_eq, hend]
    rfl
  have hcontinues := TrackTable.sceneFor_of_same b now (hopen'.trans hsome) hsame
  have hwhole := TrackTable.truncates_of_same hsame
  rw [hfirst, takeScene_eq b now q, takeScene_eq b now r, takeScene_eq b now p, ← hid, hcontinues, hwhole, hrid, hreports,
    takeReports_append, hrend, hend]
  simp only [Flag.maskIf_false, BitVec.zero_or, BitVec.or_assoc, Bool.or_false, Bool.false_or]

/-- The table, the Supervisor and the flags after an accepted frame (R51 to R54, R114, R163). -/
theorem State.sceneArrives_parts (s : State) (p : ScenePayload) :
    (s.sceneArrives p).table = (takeScene s.bank.active s.time.msClock p s.table).table
      ∧ (s.sceneArrives p).sup
          = { s.sup with
              sceneStale := s.sup.sceneStale && !(takeScene s.bank.active s.time.msClock p s.table).closed }
      ∧ (s.sceneArrives p).mgmt
          = s.mgmt.raise (reportEnable s.bank.active) (takeScene s.bank.active s.time.msClock p s.table).mask
      ∧ (s.sceneArrives p).inReset = s.inReset ∧ (s.sceneArrives p).bank = s.bank ∧ (s.sceneArrives p).time = s.time :=
  ⟨rfl, rfl, rfl, rfl, rfl, rfl⟩

/-- Settles O14: the effects of the two frames are together the effect of the one. -/
theorem sceneSplitsIntoFrames : Obligations.SceneSplitsIntoFrames := by
  intro p q r s t u v hr hp hq hrf hid hrid hend hrend hreports ht hu hv
  obtain ⟨htable, hsup, hmgmt, hreset, hbank, htime⟩ := s.sceneArrives_parts p
  rw [exec_sceneFrame_of_framed hr hp] at ht
  rw [exec_sceneFrame_of_framed hr hrf] at hv
  cases ht
  cases hv
  rw [exec_sceneFrame_of_framed (hreset.trans hr) hq] at hu
  cases hu
  obtain ⟨htable', hsup', hmgmt', -⟩ := (s.sceneArrives p).sceneArrives_parts q
  obtain ⟨htable'', hsup'', hmgmt'', -⟩ := s.sceneArrives_parts r
  rw [hbank, htime, htable] at htable' hsup' hmgmt'
  rw [takeScene_append s.bank.active s.time.msClock s.table hid hrid hend hrend hreports] at htable'' hsup'' hmgmt''
  have hmgmts : ((s.sceneArrives p).sceneArrives q).mgmt = (s.sceneArrives r).mgmt := by
    rw [hmgmt', hmgmt'', hmgmt, Management.raise_raise]
  refine ⟨htable'.trans htable''.symm, ?_, by rw [hmgmts], by rw [hmgmts]⟩
  rw [hsup', hsup'', hsup]
  dsimp only
  rw [Bool.not_or, Bool.and_assoc]

/-! ### The close of a scene (R53, R55, R56) -/

/-- Settles O15: the frame does nothing but close the scene, and each entry is the close of what it was. -/
theorem sceneCloseCountsMisses : Obligations.SceneCloseCountsMisses := by
  intro p s hr hopen hid hf hreports hend
  have heffect : takeScene s.bank.active s.time.msClock p s.table
      = { table := s.table.close s.bank.active s.time.msClock, mask := 0#16, closed := true } := by
    rw [takeScene_eq, TrackTable.truncates_of_same hid, TrackTable.sceneFor_of_same _ _ hopen hid, hreports,
      show p.endMark = true from hend]
    simp [takeReports]
  obtain ⟨htable, -, hmgmt, -⟩ := s.sceneArrives_parts p
  rw [heffect] at htable hmgmt
  refine ⟨s.sceneArrives p, exec_sceneFrame_of_framed hr hf, by rw [htable]; rfl, by rw [htable]; rfl, by rw [htable]; rfl,
    ?_, by rw [htable]; exact List.length_map _, fun i e hi => ?_⟩
  · rw [hmgmt]
    simp [Management.raise]
  · have hentry : (s.sceneArrives p).table.tracks[i]? = some (e.close s.bank.active) := by
      rw [htable, TrackTable.close, List.getElem?_map, hi]
      rfl
    rw [hentry]
    exact ⟨fun h => by rw [Track.close_of_free _ h],
      fun hs h => by rw [Track.close_of_missed_tentative _ hs h],
      fun hs h => by rw [Track.close_of_missed_confirmed _ hs h],
      fun hs h => by rw [Track.close_of_missed_coasting _ hs h]; rfl,
      fun hs h => by rw [Track.close_of_seen_tentative _ hs h]; rfl,
      fun hs h => by rw [Track.close_of_seen_established _ hs h]⟩

/-! ### Records and reports (R43 to R49) -/

/-- A SCENE_FRAME with END clear and one record that continues the open scene (R45, R52). -/
theorem takeScene_of_one_record (b : BankCopy) (now : MsTime) {p : ScenePayload} {raw : SceneReport} {t : TrackTable}
    (hopen : t.isOpen = true) (hid : t.sceneId = p.sceneId.toNat) (hreports : p.reports = [raw]) (hend : p.endMark = false) :
    takeScene b now p t = { table := (takeReport b now t raw).1, mask := (takeReport b now t raw).2, closed := false } := by
  rw [takeScene_eq, TrackTable.truncates_of_same hid, TrackTable.sceneFor_of_same _ _ hopen hid, hreports, hend]
  simp [takeReports]

/-- Settles O16: the check of a record, the frame with one record, and the cases of a report. -/
theorem reportCases : Obligations.ReportCases := by
  refine ⟨fun raw => ?_, fun p raw s hr hopen hid hf hreports hend => ?_, fun b now t r => ⟨?_, ?_, ?_, ?_⟩⟩
  · refine ⟨reportOf_eq_none_iff raw, fun r hreport => ?_⟩
    cases hc : objClassOf raw.classCode with
    | none =>
      rw [reportOf_of_no_class hc] at hreport
      cases hreport
    | some c =>
      rw [reportOf_of_class hc] at hreport
      split at hreport
      · cases hreport
      · cases hreport
        exact ⟨rfl, code_of_objClassOf hc, rfl, rfl, rfl, rfl, rfl, rfl, rfl, rfl⟩
  · intro counted
    have heffect := takeScene_of_one_record s.bank.active s.time.msClock hopen hid hreports hend
    obtain ⟨htable, hsup, hmgmt, -⟩ := s.sceneArrives_parts p
    rw [heffect] at htable hsup hmgmt
    refine ⟨s.sceneArrives p, exec_sceneFrame_of_framed hr hf, fun hfault => ?_, fun r hreport => ?_, ?_⟩
    · rw [takeReport_of_fault _ _ _ hfault] at htable hmgmt
      exact ⟨htable, hmgmt⟩
    · rw [takeReport_of_report _ _ _ hreport] at htable hmgmt
      exact ⟨htable, hmgmt⟩
    · have hkept : (s.sceneArrives p).sup = s.sup := by
        rw [hsup, Bool.not_false, Bool.and_true]
      change ({ s with sup := (s.sceneArrives p).sup } : State) = s
      rw [hkept]
  · intro i e hnodup hi hfree hid
    exact applyReport_of_track b now (hid ▸ firstSlot_holds_of_slot hnodup hi hfree) hi
  · exact fun hnew hlow => applyReport_of_low_confidence b now hnew hlow
  · exact fun i e hnew henough hi hfree hbefore =>
      applyReport_of_slot b now hnew henough (slotForNew_of_free hi hfree hbefore)
  · intro hnew henough hfull
    exact ⟨fun i e hi he hmost =>
        applyReport_of_slot b now hnew henough (slotForNew_of_most_missed hfull hi he hmost),
      fun i e hnone hrange hi he hleast =>
        applyReport_of_slot b now hnew henough (slotForNew_of_least_confident hfull hnone hrange hi he hleast),
      fun hconfirmed => applyReport_of_no_slot b now hnew henough (slotForNew_of_confirmed hfull hconfirmed)⟩

end Sys2Proof.Machine
end

section
/-! SUPPORT. FLAG_CLEAR, SCENE_CLEAR and WARM_RESET as executed commands (R60, R163, R164). -/

namespace Sys2Proof.Machine

open Sys2Proof

/-- Nothing is executed under RESET (R158). -/
theorem State.inReset_of_executes {s : State} (h : s.executes = true) : s.inReset = false := by
  rw [State.executes, Bool.and_eq_true, Bool.not_eq_true'] at h
  exact h.1

/-- A command without parameters, given none, has its effect (R159). -/
theorem withoutParams_of_nil (run : State → CommandEffect) {params : List Byte} (h : params = []) (s : State) :
    withoutParams run params s = run s := by
  rw [h]
  rfl

/-- Settles O20: each command's effect, answered in its MANAGE frame. -/
theorem flagSceneAndWarmCommands : Obligations.FlagSceneAndWarmCommands := by
  intro r s h
  have hr := State.inReset_of_executes h
  refine ⟨fun m1 m2 hparams => ?_, fun hparams => ?_, fun hparams => ?_⟩
  · rw [exec, execFlagClear, State.running_normal hr]
    refine congrArg _ (State.answered_of_effect h ?_)
    rw [hparams]
    rfl
  · rw [exec, execSceneClear, State.running_normal hr]
    refine congrArg _ (State.answered_of_effect h ?_)
    exact withoutParams_of_nil _ hparams _
  · rw [exec, execWarmReset, State.running_normal hr]
    refine congrArg _ (State.answered_of_effect h ?_)
    exact withoutParams_of_nil _ hparams _

end Sys2Proof.Machine
end

section
/-! SUPPORT. The law of a built window list (R62, R72, R74, R75): a kept candidate lies inside its lamp, a merge stays inside it,
and the sweep leaves windows apart, no more of them than tracks. -/

namespace Sys2Proof.Machine

open Sys2Proof

/-! ### The law in its parts -/

/-- A window inside its lamp, said of its edges (R62, R72). -/
theorem windowInside_iff (b : BankCopy) (d : Side) (w : Window) :
    windowInside b d w = true ↔ w.left < w.right ∧ w.bottom < w.top ∧ spanLeft b d ≤ w.left ∧ w.right ≤ spanRight b d
      ∧ -500 ≤ w.bottom ∧ w.top ≤ 1000 := by
  simp only [windowInside, Bool.and_eq_true, decide_eq_true_eq, and_assoc]

/-- The law of a list in its three parts (R62, R75). -/
theorem windowLaw_iff (b : BankCopy) (d : Side) (ws : List Window) :
    windowLaw b d ws = true ↔ ws.length ≤ 24 ∧ windowsApart (minGap b) ws = true ∧ ∀ w ∈ ws, windowInside b d w = true := by
  simp only [windowLaw, Bool.and_eq_true, decide_eq_true_eq, List.all_eq_true, and_assoc]

/-- An empty list meets the law under every ACTIVE. -/
theorem windowLaw_nil (b : BankCopy) (d : Side) : windowLaw b d [] = true :=
  (windowLaw_iff b d []).2 ⟨Nat.zero_le _, rfl, fun _ hw => absurd hw List.not_mem_nil⟩

/-- The law of both lists, side by side. -/
theorem State.windowsLaw_iff (s : State) :
    s.windowsLaw = true ↔ s.table.tracks.length = 24 ∧ ∀ d, windowLaw s.bank.active d (s.windows.get d) = true := by
  rw [Side.forall_iff]
  simp only [State.windowsLaw, Bool.and_eq_true, decide_eq_true_eq, and_assoc, Sided.get]

/-! ### Candidates (R64, R72) -/

/-- A clipped candidate that is kept lies inside its lamp (R72). -/
theorem windowInside_of_kept {b : BankCopy} {d : Side} {w : Window} (h : kept (clip b d w) = true) :
    windowInside b d (clip b d w) = true := by
  simp only [kept, Bool.and_eq_true, decide_eq_true_eq] at h
  obtain ⟨hwidth, hheight⟩ := h
  exact (windowInside_iff b d _).2
    ⟨hwidth, hheight, le_max_left _ _, min_le_left _ _, le_max_left _ _, min_le_left _ _⟩

theorem candidates_inside {b : BankCopy} {now : MsTime} {d : Side} {ts : List Track} {w : Window}
    (hw : w ∈ candidates b now d ts) : windowInside b d w = true := by
  obtain ⟨hclipped, hkept⟩ := List.mem_filter.1 hw
  obtain ⟨e, -, rfl⟩ := List.mem_map.1 hclipped
  exact windowInside_of_kept hkept

/-- A track gives one candidate at most (R64). -/
theorem candidates_length_le (b : BankCopy) (now : MsTime) (d : Side) (ts : List Track) :
    (candidates b now d ts).length ≤ ts.length :=
  calc (candidates b now d ts).length
      ≤ ((ts.filter (casts b)).map fun e => clip b d (candidate b now d e)).length := List.length_filter_le _ _
    _ = (ts.filter (casts b)).length := List.length_map _
    _ ≤ ts.length := List.length_filter_le _ _

/-! ### The sweep (R74) -/

/-- The merge of two windows of a lamp lies inside the lamp (R74). -/
theorem mergeInto_inside {b : BankCopy} {d : Side} {v w : Window} (hv : windowInside b d v = true)
    (hw : windowInside b d w = true) : windowInside b d (mergeInto v w) = true := by
  rw [windowInside_iff] at hv hw ⊢
  dsimp only [mergeInto]
  omega

/-- The sweep forms windows by merges alone: what candidates have and merges keep, every window has. -/
theorem sweepFrom_forall {p : Window → Prop} (hmerge : ∀ v w, p v → p w → p (mergeInto v w)) (gap : Int) {c : Window}
    {ws : List Window} (hc : p c) (hws : ∀ w ∈ ws, p w) : ∀ v ∈ sweepFrom gap c ws, p v := by
  induction ws generalizing c with
  | nil => exact List.forall_mem_singleton.2 hc
  | cons w ws ih =>
    obtain ⟨hw, hrest⟩ := List.forall_mem_cons.1 hws
    rw [sweepFrom]
    split_ifs
    · exact ih (hmerge c w hc hw) hrest
    · exact List.forall_mem_cons.2 ⟨hc, ih hw hrest⟩

theorem sweepFrom_length_le (gap : Int) (c : Window) (ws : List Window) : (sweepFrom gap c ws).length ≤ ws.length + 1 := by
  induction ws generalizing c with
  | nil => exact le_rfl
  | cons w ws ih =>
    rw [sweepFrom]
    split_ifs
    · exact (ih _).trans (Nat.le_succ _)
    · exact Nat.succ_le_succ (ih w)

/-- The first window of a sweep keeps the left edge it started with: a merge moves the right edge alone. -/
theorem sweepFrom_left (gap : Int) (c : Window) (ws : List Window) :
    ∃ v rest, sweepFrom gap c ws = v :: rest ∧ v.left = c.left := by
  induction ws generalizing c with
  | nil => exact ⟨c, [], rfl, rfl⟩
  | cons w ws ih =>
    rw [sweepFrom]
    split_ifs
    · exact ih (mergeInto c w)
    · exact ⟨c, _, rfl, rfl⟩

/-- A window is closed only by a candidate at least the gap beyond its right edge, and the next window begins at that
candidate's left edge (R74, R75). -/
theorem sweepFrom_apart {gap : Int} (hgap : 0 ≤ gap) {c : Window} {ws : List Window} (hc : c.left < c.right)
    (hws : ∀ w ∈ ws, w.left < w.right) : windowsApart gap (sweepFrom gap c ws) = true := by
  induction ws generalizing c with
  | nil => rfl
  | cons w ws ih =>
    obtain ⟨hw, hrest⟩ := List.forall_mem_cons.1 hws
    rw [sweepFrom]
    split_ifs with hnear
    · exact ih (hc.trans_le (le_max_left _ _)) hrest
    · have hlater := ih hw hrest
      obtain ⟨v, rest, heq, hleft⟩ := sweepFrom_left gap w ws
      rw [heq] at hlater ⊢
      simp only [windowsApart, hlater, Bool.and_true, Bool.and_eq_true, decide_eq_true_eq]
      omega

/-- The sweep of at most 24 candidates inside a lamp meets the law (R74, R75). -/
theorem sweep_windowLaw {b : BankCopy} {d : Side} {ws : List Window} (hlength : ws.length ≤ 24)
    (hinside : ∀ w ∈ ws, windowInside b d w = true) : windowLaw b d (sweep (minGap b) ws) = true := by
  cases ws with
  | nil => exact windowLaw_nil b d
  | cons c ws =>
    obtain ⟨hc, hws⟩ := List.forall_mem_cons.1 hinside
    have hwidth : ∀ w, windowInside b d w = true → w.left < w.right := fun w hw => ((windowInside_iff b d w).1 hw).1
    rw [sweep, windowLaw_iff]
    exact ⟨(sweepFrom_length_le _ c ws).trans hlength,
      sweepFrom_apart (Int.natCast_nonneg _) (hwidth c hc) fun w hw => hwidth w (hws w hw),
      sweepFrom_forall (p := fun w => windowInside b d w = true) (fun _ _ => mergeInto_inside) _ hc hws⟩

/-! ### The lists of an output frame event (R63) -/

/-- A list built from at most 24 tracks meets the law under the tables it is built with. -/
theorem buildWindows_windowLaw (b : BankCopy) (now : MsTime) (d : Side) {ts : List Track} (h : ts.length ≤ 24) :
    windowLaw b d (buildWindows b now d ts) = true := by
  have hsorted := sortWindows_perm (candidates b now d ts)
  refine sweep_windowLaw ?_ fun w hw => candidates_inside (hsorted.mem_iff.1 hw)
  rw [hsorted.length_eq]
  exact (candidates_length_le b now d ts).trans h

theorem windowsAt_windowLaw (b : BankCopy) (now : MsTime) (mode : BeamMode) (fn : LightFn) {ts : List Track}
    (h : ts.length ≤ 24) (d : Side) : windowLaw b d ((windowsAt b now mode fn ts).get d) = true := by
  rw [windowsAt_get]
  split_ifs
  · exact buildWindows_windowLaw b now d h
  · exact windowLaw_nil b d

/-- An output frame event outputs lists that meet the law under the ACTIVE it leaves, a commit of the event included
(R63, R155). -/
theorem State.outputFrameEvent_windowLaw {s : State} (h : s.table.tracks.length ≤ 24) (cause : FrameCause) (d : Side) :
    windowLaw (s.outputFrameEvent cause).bank.active d ((s.outputFrameEvent cause).windows.get d) = true := by
  obtain ⟨-, -, -, htable, -⟩ := s.atDecisions_frame cause
  obtain ⟨-, -, -, -, -, -, hwindows, -, -, -, -, hbank, -⟩ := (State.statusAtEvent_admits
    (s.atDecisions cause).frameDecisions s.completeComposition.mgmt.reportRequest).frame
  rw [s.outputFrameEvent_eq, hwindows, hbank]
  refine windowsAt_windowLaw _ _ _ _ ?_ d
  rw [htable]
  exact h

end Sys2Proof.Machine
end

section
/-! SUPPORT. What each command can do to the window lists and to the number of slots of the Track Table (R40, R62, R63), said once
for every command. -/

namespace Sys2Proof.Machine

open Sys2Proof

/-! ### The 24 slots (R40) -/

theorem TrackTable.sceneFor_length (b : BankCopy) (now : MsTime) (t : TrackTable) (id : Nat) :
    (t.sceneFor b now id).tracks.length = t.tracks.length := by
  obtain ⟨-, -, -, -, hlength⟩ := t.sceneFor_frame b now id
  exact hlength

theorem takeReports_length (b : BankCopy) (now : MsTime) (t : TrackTable) (rs : List SceneReport) :
    (takeReports b now t rs).1.tracks.length = t.tracks.length := by
  obtain ⟨-, -, -, hlength⟩ := takeReports_frame b now t rs
  exact hlength

/-- A SCENE frame fills and frees slots; it adds and removes none. -/
theorem takeScene_length (b : BankCopy) (now : MsTime) (p : ScenePayload) (t : TrackTable) :
    (takeScene b now p t).table.tracks.length = t.tracks.length := by
  have htaken : (takeReports b now (t.sceneFor b now p.sceneId.toNat) p.reports).1.tracks.length = t.tracks.length :=
    (takeReports_length b now _ _).trans (t.sceneFor_length b now _)
  rw [takeScene_eq]
  dsimp only
  split_ifs
  · exact (List.length_map _).trans htaken
  · exact htaken

/-- Each effect on the table leaves 24 slots. -/
theorem State.TableEffect.length {s : State} {c : Instr} {t : TrackTable} (ht : s.TableEffect c t)
    (h : s.table.tracks.length = 24) : t.tracks.length = 24 := by
  cases ht with
  | kept => exact h
  | scene p => exact (takeScene_length _ _ p _).trans h
  | cleared r => rfl
  | event _ => exact h
  | reset _ => rfl

/-! ### What most effects leave alone -/

theorem State.startReceived_windows (s : State) : s.startReceived.windows = s.windows := by
  rw [State.startReceived]
  split_ifs <;> rfl

theorem State.frameFails_windows (s : State) (cause : FrameFault) : (s.frameFails cause).windows = s.windows := by
  cases cause with
  | startInFrame => rfl
  | overflow => rfl
  | failedCheck data =>
    rw [State.frameFails]
    split_ifs <;> rfl

theorem State.withLink_windows (s : State) (e : LinkEffect) : (s.withLink e).windows = s.windows := by
  obtain ⟨-, -, -, -, -, hwindows, -⟩ := s.withLink_frame e
  exact hwindows

theorem State.squelched_windows (s : State) : s.squelched.windows = s.windows := by
  rw [State.squelched, State.withLink_windows]
  split_ifs <;> rfl

theorem State.motionArrives_windows (s : State) (m : MotionPayload) : (s.motionArrives m).windows = s.windows := by
  obtain ⟨-, -, -, -, -, hwindows, -⟩ := State.testSpeedCheck_frame
    (({ s with rx := s.rx.accepted (frameBytes classMotion (motionBytes m)), motion := motionOf m } : State).withLink
      { link := s.link.arrival s.bank.active s.time.msClock, mask := 0#16 })
  exact hwindows.trans (State.withLink_windows _ _)

theorem State.sceneFrame_windows (s : State) (p : ScenePayload) :
    (if p.framed then s.sceneArrives p else s.frameDiscarded false).windows = s.windows := by
  split_ifs <;> rfl

theorem State.patternFrame_windows (s : State) (p : PatternPayload) : (s.patternFrame p).windows = s.windows := by
  rw [State.patternFrame]
  split
  · split_ifs <;> rfl
  · rfl

theorem State.lowreqLineTo_windows (s : State) (active : Bool) : (s.lowreqLineTo active).windows = s.windows := by
  rw [State.lowreqLineTo]
  split_ifs <;> rfl

theorem State.lowreqTaken_windows (s : State) : s.lowreqTaken.windows = s.windows := by
  rw [State.lowreqTaken]
  split <;> rfl

theorem State.Admits.windows {s t : State} (h : s.Admits t) : t.windows = s.windows := by
  obtain ⟨added, status, report, ports, rfl, -⟩ := h
  rfl

theorem State.busEvent_windows (s : State) (d : Side) (act : BankCopy → Bool → Port → PortEffect) :
    (s.busEvent d act).windows = s.windows :=
  (State.admitClaims_admits _).windows

theorem State.strobeEnds_windows (s : State) : s.strobeEnds.windows = s.windows := by
  rw [State.strobeEnds]
  split_ifs <;> rfl

theorem State.completeComposition_windows (s : State) : s.completeComposition.windows = s.windows := by
  obtain ⟨-, -, -, -, -, -, hwindows, -⟩ := s.completeComposition_frame
  exact hwindows

/-! ### MANAGE commands -/

/-- A MANAGE record leaves the lists alone where its command does, whatever its frame (R158). -/
theorem State.manageRecord_windows {run : List Byte → State → CommandEffect}
    (hrun : ∀ params u, (run params u).state.windows = u.windows) (s : State) (code : Byte) (r : ManageRecord) :
    (s.manageRecord code r run).windows = s.windows := by
  refine State.manageRecord_keeps (P := fun u => u.windows = s.windows) (fun u tag hu => ?_) (fun _ _ hu => hu)
    (fun _ _ hu => hu) (fun params u hu => (hrun params u).trans hu) rfl code r
  rw [State.openFrame]
  split <;> exact hu

theorem withoutParams_windows {run : State → CommandEffect} (hrun : ∀ u, (run u).state.windows = u.windows)
    (params : List Byte) (s : State) : (withoutParams run params s).state.windows = s.windows := by
  rw [withoutParams]
  split
  · rfl
  · exact hrun s

theorem tableWriteCommand_windows (params : List Byte) (s : State) :
    (tableWriteCommand params s).state.windows = s.windows := by
  rw [tableWriteCommand]
  split
  · rfl
  · split_ifs <;> rfl

theorem tableReadCommand_windows (params : List Byte) (s : State) :
    (tableReadCommand params s).state.windows = s.windows := by
  rw [tableReadCommand]
  split
  · rfl
  · split_ifs <;> rfl

theorem statusNowCommand_windows : ∀ params s, (statusNowCommand params s).state.windows = s.windows :=
  withoutParams_windows fun _ => (State.admitClaims_admits _).windows

theorem flagClearCommand_windows (params : List Byte) (s : State) :
    (flagClearCommand params s).state.windows = s.windows := by
  rw [flagClearCommand]
  split <;> rfl

theorem frameAlignCommand_windows (params : List Byte) (s : State) :
    (frameAlignCommand params s).state.windows = s.windows := by
  rw [frameAlignCommand]
  split
  · rfl
  · split_ifs <;> rfl

theorem testEnterCommand_windows (params : List Byte) (s : State) :
    (testEnterCommand params s).state.windows = s.windows := by
  rw [testEnterCommand]
  split
  · rfl
  · split_ifs <;> rfl

theorem testExitCommand_windows : ∀ params s, (testExitCommand params s).state.windows = s.windows := by
  refine withoutParams_windows fun u => ?_
  dsimp only
  split_ifs <;> rfl

theorem portCommand_windows (act : BankCopy → Port → Port) (params : List Byte) (s : State) :
    (portCommand act params s).state.windows = s.windows := by
  rw [portCommand]
  split
  · rfl
  · split
    · rfl
    · split_ifs <;> rfl

theorem driverPassCommand_windows (params : List Byte) (s : State) :
    (driverPassCommand params s).state.windows = s.windows := by
  rw [driverPassCommand]
  split
  · rfl
  · split
    · rfl
    · split_ifs <;> rfl

/-! ### Every command and every step -/

/-- What a command can do to the window lists: keep them and ACTIVE, output them anew at an output frame event, or empty them by a
reset (R61, R63, R79). -/
inductive State.WindowEffect (s : State) : State → Prop
  | kept {t : State} (hwindows : t.windows = s.windows) (hactive : t.bank.active = s.bank.active) : WindowEffect s t
  | event (n : Nat) (cause : FrameCause) : WindowEffect s ((s.elapse n).outputFrameEvent cause)
  | emptied {t : State} (hwindows : t.windows = .both []) : WindowEffect s t

theorem State.WindowEffect.refl (s : State) : s.WindowEffect s := .kept rfl rfl

/-- A command that does nothing under RESET has the effect on the lists that it has outside RESET. -/
theorem State.running_windowEffect {s : State} {f : State → State} (h : s.WindowEffect (f s)) :
    s.WindowEffect (s.running f) :=
  State.running_keeps (P := s.WindowEffect) (.refl s) h

theorem State.running_windows {s : State} {f : State → State} (hwindows : (f s).windows = s.windows)
    (hactive : (f s).bank.active = s.bank.active) : s.WindowEffect (s.running f) :=
  State.running_windowEffect (.kept hwindows hactive)

theorem State.headSent_windowEffect (s : State) : s.WindowEffect s.headSent := by
  rcases s.headSent_cases with ⟨-, h⟩ | ⟨f, rest, -, -, h⟩ | ⟨f, rest, -, -, h⟩ <;> rw [h]
  · exact .refl s
  · exact .emptied rfl
  · have hadmits := State.admitClaims_admits { s with mgmt := { s.mgmt with queue := rest } }
    exact .kept hadmits.windows hadmits.keeps.active

theorem State.warmResetDue_windowEffect (s : State) : s.WindowEffect s.warmResetDue := by
  rw [State.warmResetDue]
  split_ifs
  · exact .emptied rfl
  · exact .refl s

theorem State.syncEdgeArrives_windowEffect (s : State) (edge : SyncEdge) : s.WindowEffect (s.syncEdgeArrives edge) := by
  rw [State.syncEdgeArrives]
  split_ifs
  · have hevent := State.WindowEffect.event (s := s) 0 .acceptedEdge
    rwa [s.elapse_zero] at hevent
  · exact .kept rfl rfl
  · exact .refl s

/-- Every command has a next state, and one of these effects on the lists. -/
theorem exec_windowEffect (c : Instr) (s : State) : ∃ t, exec c s = .next t ∧ s.WindowEffect t := by
  have hmanage : ∀ (code : Byte) (r : ManageRecord) {run : List Byte → State → CommandEffect},
      (∀ params u, (run params u).state.windows = u.windows) → (∀ params u, State.Keeps u (run params u).state) →
      s.WindowEffect (s.running fun u => u.manageRecord code r run) :=
    fun code r _ hwindows hkeeps => State.running_windows (State.manageRecord_windows hwindows s code r)
      (State.manageRecord_keeps_of hkeeps s code r).active
  have hbus : ∀ (d : Side) (act : BankCopy → Bool → Port → PortEffect),
      s.WindowEffect (s.running fun u => u.busEvent d act) :=
    fun d act => State.running_windows (s.busEvent_windows d act) (s.busEvent_keeps d act).active
  cases c with
  | coldReset => exact ⟨_, rfl, .emptied rfl⟩
  | resetEnds =>
    refine ⟨_, rfl, ?_⟩
    split_ifs
    · exact .kept rfl rfl
    · exact .refl s
  | lowreqEdge active => exact ⟨_, rfl, .kept (s.lowreqLineTo_windows active) (s.lowreqLineTo_keeps active).active⟩
  | lowreqLevelChange => exact ⟨_, rfl, State.running_windows s.lowreqTaken_windows s.lowreqTaken_keeps.active⟩
  | lineSquelch => exact ⟨_, rfl, State.running_windows s.squelched_windows s.squelched_keeps.active⟩
  | linkFrameError cause =>
    exact ⟨_, rfl, State.running_windows (s.frameFails_windows cause) (s.frameFails_keeps cause).active⟩
  | startSymbol => exact ⟨_, rfl, State.running_windows s.startReceived_windows s.startReceived_keeps.active⟩
  | motionFrame m => exact ⟨_, rfl, State.running_windows (s.motionArrives_windows m) (s.motionArrives_keeps m).active⟩
  | sceneFrame p => exact ⟨_, rfl, State.running_windows (s.sceneFrame_windows p) (s.sceneFrame_keeps p).active⟩
  | patternFrame p => exact ⟨_, rfl, State.running_windows (s.patternFrame_windows p) (s.patternFrame_keeps p).active⟩
  | lapseExpiry => exact ⟨_, rfl, State.running_windows (s.withLink_windows _) (s.withLink_keeps _).active⟩
  | lossExpiry => exact ⟨_, rfl, State.running_windows (s.withLink_windows _) (s.withLink_keeps _).active⟩
  | tableWrite r => exact ⟨_, rfl, hmanage _ r tableWriteCommand_windows tableWriteCommand_keeps⟩
  | tableRead r => exact ⟨_, rfl, hmanage _ r tableReadCommand_windows tableReadCommand_keeps⟩
  | commit r =>
    exact ⟨_, rfl, hmanage _ r (withoutParams_windows fun _ => rfl) (withoutParams_keeps fun _ => .of_eq)⟩
  | discard r =>
    exact ⟨_, rfl, hmanage _ r (withoutParams_windows fun _ => rfl) (withoutParams_keeps fun _ => .of_eq)⟩
  | statusNow r => exact ⟨_, rfl, hmanage _ r statusNowCommand_windows statusNowCommand_keeps⟩
  | flagClear r => exact ⟨_, rfl, hmanage _ r flagClearCommand_windows flagClearCommand_keeps⟩
  | sceneClear r =>
    exact ⟨_, rfl, hmanage _ r (withoutParams_windows fun _ => rfl) (withoutParams_keeps fun _ => .of_eq)⟩
  | frameAlign r => exact ⟨_, rfl, hmanage _ r frameAlignCommand_windows frameAlignCommand_keeps⟩
  | testEnter r => exact ⟨_, rfl, hmanage _ r testEnterCommand_windows testEnterCommand_keeps⟩
  | testExit r => exact ⟨_, rfl, hmanage _ r testExitCommand_windows testExitCommand_keeps⟩
  | portHalt r => exact ⟨_, rfl, hmanage _ r (portCommand_windows _) (portCommand_keeps _)⟩
  | portStop r => exact ⟨_, rfl, hmanage _ r (portCommand_windows _) (portCommand_keeps _)⟩
  | portResume r => exact ⟨_, rfl, hmanage _ r (portCommand_windows _) (portCommand_keeps _)⟩
  | driverPass r => exact ⟨_, rfl, hmanage _ r driverPassCommand_windows driverPassCommand_keeps⟩
  | warmReset r =>
    exact ⟨_, rfl, hmanage _ r (withoutParams_windows fun _ => rfl) (withoutParams_keeps fun _ => .of_eq)⟩
  | unknownCommand code r => exact ⟨_, rfl, hmanage code r (fun _ _ => rfl) fun _ u => .refl u⟩
  | upstreamFrameSent => exact ⟨_, rfl, State.running_windowEffect s.headSent_windowEffect⟩
  | queueClaimEntry => exact ⟨_, rfl, State.running_windows s.admitClaims_admits.windows s.admitClaims_admits.keeps.active⟩
  | warmResetTakesEffect => exact ⟨_, rfl, State.running_windowEffect s.warmResetDue_windowEffect⟩
  | frameTimerExpiry => exact ⟨_, rfl, State.running_windowEffect (.event _ _)⟩
  | fsyncEdge edge => exact ⟨_, rfl, State.running_windowEffect (s.syncEdgeArrives_windowEffect edge)⟩
  | strobeEnd => exact ⟨_, rfl, State.running_windows s.strobeEnds_windows s.strobeEnds_keeps.active⟩
  | msClockTick => exact ⟨_, rfl, State.running_windows rfl rfl⟩
  | compositionComplete =>
    exact ⟨_, rfl, State.running_windows s.completeComposition_windows s.completeComposition_keeps.active⟩
  | segmentWriteAck a => exact ⟨_, rfl, hbus _ _⟩
  | registerAck a => exact ⟨_, rfl, hbus _ _⟩
  | nak a => exact ⟨_, rfl, hbus _ _⟩
  | replyTimeout d => exact ⟨_, rfl, hbus _ _⟩

/-- After each effect on the lists, each of them meets the law under the ACTIVE that stands then. -/
theorem State.WindowEffect.windowLaw {s t : State} (ht : s.WindowEffect t) (h : s.windowsLaw = true) (d : Side) :
    windowLaw t.bank.active d (t.windows.get d) = true := by
  obtain ⟨hlength, hlists⟩ := s.windowsLaw_iff.1 h
  cases ht with
  | kept hwindows hactive =>
    rw [hwindows, hactive]
    exact hlists d
  | event n cause => exact State.outputFrameEvent_windowLaw (s := s.elapse n) hlength.le cause d
  | emptied hwindows =>
    rw [hwindows, Sided.get_both]
    exact windowLaw_nil _ d

/-- Every command has a next state and keeps the law, the 24 slots by its effect on the table and the lists by its effect on
them. -/
theorem exec_windowsLaw (c : Instr) (s : State) (h : s.windowsLaw = true) :
    ∃ t, exec c s = .next t ∧ t.windowsLaw = true := by
  obtain ⟨hlength, -⟩ := s.windowsLaw_iff.1 h
  obtain ⟨t, ht, heffect⟩ := exec_windowEffect c s
  obtain ⟨u, hu, htable⟩ := exec_tableEffect c s
  obtain rfl : t = u := by
    rw [ht] at hu
    cases hu
    rfl
  exact ⟨t, ht, t.windowsLaw_iff.2 ⟨htable.length hlength, heffect.windowLaw h⟩⟩

/-- Settles O52: every command keeps the law, and neither the queue of commands nor a tick touches it. -/
theorem stepKeepsWindowLaw : Obligations.StepKeepsWindowLaw := fun _ _ h hst =>
  step_keeps (P := fun s => s.windowsLaw = true) (fun _ _ hs => hs) (fun _ _ hs => hs) exec_windowsLaw h hst

end Sys2Proof.Machine
end

section
/-! SUPPORT. The step of one segment (R82 to R85): the hold after the frame's flag, and the move of the level in each case. -/

namespace Sys2Proof.Machine

open Sys2Proof

/-! ### The hold and the rise step (R82, R84) -/

/-- No hold in a shadow, the release hold on leaving it, and otherwise the hold as it stands (R82). -/
theorem holdAfterFlag_eq (b : BankCopy) (lastFlag flag : Bool) (hold : Nat) :
    holdAfterFlag b lastFlag flag hold
      = if flag = true then 0 else if lastFlag = true then natField b 6 3 else hold := by
  cases flag <;> cases lastFlag <;> rfl

theorem riseOf_eq (b : BankCopy) (mode : BeamMode) :
    riseOf b mode = if mode = .fallback then natField b 6 2 else natField b 6 1 := rfl

/-! ### The move of a level (R83) -/

section
variable {fall rise target level hold : Nat}

theorem moveLevel_of_fall (h : target < level) :
    moveLevel fall rise target level hold = (max target (level - fall), hold) := if_pos h

theorem moveLevel_of_wait (h : level < target) (hhold : 0 < hold) :
    moveLevel fall rise target level hold = (level, hold - 1) := by
  rw [moveLevel, if_neg h.le.not_gt, if_pos h, if_pos hhold]

theorem moveLevel_of_rise (h : level < target) :
    moveLevel fall rise target level 0 = (min target (level + rise), 0) := by
  rw [moveLevel, if_neg h.le.not_gt, if_pos h, if_neg (Nat.lt_irrefl 0)]

theorem moveLevel_at_target : moveLevel fall rise level level hold = (level, hold) := by
  rw [moveLevel, if_neg (Nat.lt_irrefl level), if_neg (Nat.lt_irrefl level)]

/-- What a move can do: fall, wait, rise, or stay at the target. -/
theorem moveLevel_cases (fall rise target level hold : Nat) :
    (target < level ∧ (moveLevel fall rise target level hold).1 = max target (level - fall))
      ∨ (level ≤ target ∧ (moveLevel fall rise target level hold).1 = level)
      ∨ (level < target ∧ (moveLevel fall rise target level hold).1 = min target (level + rise)) := by
  rcases Nat.lt_trichotomy target level with h | rfl | h
  · exact .inl ⟨h, by rw [moveLevel_of_fall h]⟩
  · exact .inr (.inl ⟨le_rfl, by rw [moveLevel_at_target]⟩)
  · rcases Nat.eq_zero_or_pos hold with rfl | hhold
    · exact .inr (.inr ⟨h, by rw [moveLevel_of_rise h]⟩)
    · exact .inr (.inl ⟨h.le, by rw [moveLevel_of_wait h hhold]⟩)

end

/-! ### The step (R81, R85) -/

theorem SegmentRecord.step_of_test (b : BankCopy) (target : Nat) (flag : Bool) (s : SegmentRecord) :
    s.step b .test target flag = { level := target, hold := 0, lastFlag := flag } := rfl

/-- Outside TEST a step is the move under the hold that the flag leaves. -/
theorem SegmentRecord.step_of_ne_test {mode : BeamMode} (h : mode ≠ .test) (b : BankCopy) (target : Nat) (flag : Bool)
    (s : SegmentRecord) :
    s.step b mode target flag =
      { level := (moveLevel (fallStep b) (riseOf b mode) target s.level (holdAfterFlag b s.lastFlag flag s.hold)).1
        hold := (moveLevel (fallStep b) (riseOf b mode) target s.level (holdAfterFlag b s.lastFlag flag s.hold)).2
        lastFlag := flag } := if_neg h

/-- Settles O40: in TEST the target at once, and otherwise the move of R83 case by case. -/
theorem segmentStepMovesToTarget : Obligations.SegmentStepMovesToTarget := by
  intro b mode target flag s
  dsimp only
  by_cases hm : mode = .test
  · subst hm
    rw [SegmentRecord.step_of_test]
    exact ⟨rfl, fun _ => ⟨rfl, rfl⟩, fun h => absurd rfl h⟩
  · rw [SegmentRecord.step_of_ne_test hm, ← riseOf_eq, ← holdAfterFlag_eq, ← show fallStep b = natField b 6 0 from rfl]
    dsimp only
    generalize holdAfterFlag b s.lastFlag flag s.hold = hold
    refine ⟨rfl, fun h => absurd h hm, fun _ => ⟨fun h => ?_, fun h hhold => ?_, fun h hhold => ?_, fun h => ?_, ?_⟩⟩
    · rw [moveLevel_of_fall h]
      exact ⟨rfl, rfl⟩
    · rw [moveLevel_of_wait h hhold]
      exact ⟨rfl, rfl⟩
    · rw [hhold, moveLevel_of_rise h]
      exact ⟨rfl, rfl⟩
    · rw [h, moveLevel_at_target]
      exact ⟨rfl, rfl⟩
    · rcases moveLevel_cases (fallStep b) (riseOf b mode) target s.level hold with ⟨h, e⟩ | ⟨h, e⟩ | ⟨h, e⟩ <;> rw [e] <;> omega

end Sys2Proof.Machine
end

section
/-! SUPPORT. Levels under a validated bank (R1, R5, R87, R120, R152): every word, base value, target, test pattern and stepped
level lies within 0..1023. -/

namespace Sys2Proof.Machine

open Sys2Proof

/-! ### Lists of levels -/

theorem levelsOk_iff {ls : List Nat} : levelsOk ls = true ↔ ∀ v ∈ ls, v ≤ 1023 := by
  simp [levelsOk]

/-- A position of a list of levels, or 0 beyond its end, is a level. -/
theorem levelsOk_getD {ls : List Nat} (h : levelsOk ls = true) (n : Nat) : ls.getD n 0 ≤ 1023 := by
  by_cases hn : n < ls.length
  · rw [List.getD_eq_getElem _ _ hn]
    exact levelsOk_iff.1 h _ (List.getElem_mem hn)
  · rw [List.getD_eq_default _ _ (Nat.le_of_not_lt hn)]
    exact Nat.zero_le _

theorem levelsOk_replicate_zero (n : Nat) : levelsOk (List.replicate n 0) = true :=
  levelsOk_iff.2 fun v hv => by rw [List.eq_of_mem_replicate hv]; exact Nat.zero_le _

/-- A list formed position by position from levels. -/
theorem levelsOk_map_range {f : Nat → Nat} {count : Nat} (h : ∀ n, n < count → f n ≤ 1023) :
    levelsOk ((List.range count).map f) = true := by
  refine levelsOk_iff.2 fun v hv => ?_
  obtain ⟨n, hn, rfl⟩ := List.mem_map.1 hv
  exact h n (List.mem_range.1 hn)

/-! ### The words of a validated bank (R150, R152, R154) -/

section
variable {b : BankCopy}

/-- A lamp has 1 to 4 rows and 8 to 32 columns (R150). -/
theorem geometry_of_valid (hb : bankFault b = none) (d : Side) :
    rowCount b d ≤ 4 ∧ 8 ≤ colCount b d ∧ colCount b d ≤ 32 := by
  have hrows : wordOk b (geometryId d) 0 = geometryWordOk b d 0 := by cases d <;> rfl
  have hcols : wordOk b (geometryId d) 1 = geometryWordOk b d 1 := by cases d <;> rfl
  have hid : geometryId d ∈ tableIds ∧ 1 < tableSize (geometryId d) := by cases d <;> decide
  have hword := bankFault_none.1 hb _ hid.1
  have h0 := hrows.symm.trans (hword 0 (by omega))
  have h1 := hcols.symm.trans (hword 1 hid.2)
  simp only [geometryWordOk, within, Bool.and_eq_true, decide_eq_true_eq, if_true, one_ne_zero, if_false] at h0 h1
  exact ⟨h0.2, h1⟩

theorem colCount_pos (hb : bankFault b = none) (d : Side) : 0 < colCount b d := by
  have h := (geometry_of_valid hb d).2.1
  omega

/-- A lamp has 128 segments at most (R1). -/
theorem segmentCount_le (hb : bankFault b = none) (d : Side) : segmentCount b d ≤ 128 := by
  obtain ⟨hrows, -, hcols⟩ := geometry_of_valid hb d
  exact Nat.mul_le_mul hrows hcols

/-- A word of a PATTERN or FALLBACK table is a level (R152). -/
theorem natField_pattern_le (hb : bankFault b = none) {id off : Nat} (hid : 16 ≤ id ∧ id ≤ 32) (hoff : off < 256) :
    natField b id off ≤ 1023 := by
  obtain ⟨hlow, hhigh⟩ := hid
  have hmem : id ∈ tableIds ∧ tableSize id = 256 ∧ wordOk b id off = patternWordOk b id off := by
    interval_cases id <;> exact ⟨by decide, rfl, rfl⟩
  obtain ⟨hmem, hsize, hpattern⟩ := hmem
  have hword := hpattern.symm.trans (bankFault_none.1 hb id hmem off (hsize ▸ hoff))
  simp only [patternWordOk, within, Config.maxLevel, Bool.and_eq_true, decide_eq_true_eq] at hword
  exact hword.1.2

theorem sideOffset_add_lt {n : Nat} (d : Side) (hn : n < 128) : sideOffset d + n < 256 := by
  cases d <;> simp only [sideOffset] <;> omega

theorem patternLevel_le (hb : bankFault b = none) {i n : Nat} (hi : i ≤ 15) (hn : n < 128) (d : Side) :
    patternLevel b i d n ≤ 1023 :=
  natField_pattern_le hb (by simp only [idPattern0]; omega) (sideOffset_add_lt d hn)

theorem fallbackLevel_le (hb : bankFault b = none) {n : Nat} (hn : n < 128) (d : Side) : fallbackLevel b d n ≤ 1023 :=
  natField_pattern_le hb (by decide) (sideOffset_add_lt d hn)

/-- Every column of a segment's row is a position of the lamp. -/
theorem row_position_lt {d : Side} {n k : Nat} (hn : n < segmentCount b d) (hk : k < colCount b d) :
    n / colCount b d * colCount b d + k < segmentCount b d := by
  have hrow : n / colCount b d + 1 ≤ rowCount b d := Nat.div_lt_of_lt_mul (by rwa [Nat.mul_comm])
  calc n / colCount b d * colCount b d + k < n / colCount b d * colCount b d + colCount b d := by omega
    _ = (n / colCount b d + 1) * colCount b d := (Nat.succ_mul _ _).symm
    _ ≤ rowCount b d * colCount b d := Nat.mul_le_mul_right _ hrow

/-! ### Test patterns (R119, R120) -/

theorem TestProgram.wellFormed_bounds {p : TestProgram} (h : p.wellFormed = true) : p.storedIndex ≤ 15 ∧ p.level ≤ 1023 := by
  simp only [TestProgram.wellFormed, Config.maxLevel, Bool.and_eq_true, decide_eq_true_eq] at h
  obtain ⟨⟨⟨⟨-, hindex⟩, hlevel⟩, -⟩, -⟩ := h
  exact ⟨hindex, hlevel⟩

/-- The value of a lamp's segment before inversion is a level: the program's, 0, or a stored one (R120). -/
theorem testValue_le (hb : bankFault b = none) {p : TestProgram} (hp : p.wellFormed = true) (d : Side) (pat : TestPattern)
    (walk : Nat) {n : Nat} (hn : n < segmentCount b d) :
    testValue b d p pat walk (n / colCount b d) (n % colCount b d) ≤ 1023 := by
  obtain ⟨hindex, hlevel⟩ := TestProgram.wellFormed_bounds hp
  have hcell : ∀ c : Prop, [Decidable c] → (if c then p.level else 0) ≤ 1023 := fun c _ => by split_ifs <;> omega
  cases pat with
  | solid => exact hlevel
  | checker => exact hcell _
  | columnWalk => exact hcell _
  | rowWalk => exact hcell _
  | stored =>
    have hposition := row_position_lt hn (Nat.mod_lt n (colCount_pos hb d))
    exact patternLevel_le hb hindex (hposition.trans_le (segmentCount_le hb d)) d

theorem testLevel_le (hb : bankFault b = none) {p : TestProgram} (hp : p.wellFormed = true) (d : Side) (pat : TestPattern)
    (walk n : Nat) : testLevel b d p pat walk n ≤ 1023 := by
  rw [testLevel_eq]
  split_ifs with hn
  · exact Nat.zero_le _
  · exact Nat.sub_le _ _
  · exact testValue_le hb hp d pat walk (Nat.lt_of_not_le hn)

theorem testPatternOf_levelsOk (hb : bankFault b = none) {u : Supervisor} (hu : u.program.all TestProgram.wellFormed = true)
    (d : Side) : levelsOk (testPatternOf b u d) = true := by
  rw [testPatternOf]
  split
  · rename_i p pat hp _
    rw [hp] at hu
    exact levelsOk_map_range fun n _ => testLevel_le hb hu d pat u.walk n
  · exact levelsOk_replicate_zero _

end

/-! ### Composition (R5, R10 to R17) -/

/-- The inputs of a composition are sound exactly when each of them gives levels. -/
theorem CompositionInputs.sound_iff (x : CompositionInputs) :
    x.sound = true ↔ bankFault x.active = none ∧ x.lowIndex ≤ 15 ∧ x.adaptiveIndex ≤ 15
      ∧ (∀ d, levelsOk (x.streams.get d).levels = true) ∧ ∀ d, levelsOk (x.test.get d) = true := by
  simp only [CompositionInputs.sound, Side.forall_iff, Sided.get, Bool.and_eq_true, decide_eq_true_eq, and_assoc,
    Option.isNone_iff_eq_none]

section
variable {x : CompositionInputs}

/-- Stage 1 gives levels (R5, R6). -/
theorem baseLevel_le (hx : x.sound = true) (d : Side) {n : Nat} (hn : n < 128) : baseLevel x d n ≤ 1023 := by
  obtain ⟨hb, hlow, hadaptive, hstreams, htest⟩ := x.sound_iff.1 hx
  have hlowLevel := patternLevel_le hb hlow hn d
  rw [baseLevel]
  cases x.mode with
  | dark => exact Nat.zero_le _
  | fallback => exact fallbackLevel_le hb hn d
  | test => exact levelsOk_getD (htest d) n
  | hold =>
    cases x.function with
    | off => exact Nat.zero_le _
    | low => exact hlowLevel
    | adaptive => exact hlowLevel
  | normal =>
    cases x.function with
    | off => exact Nat.zero_le _
    | low => exact hlowLevel
    | adaptive =>
      dsimp only
      split_ifs
      · exact levelsOk_getD (hstreams d) n
      · exact patternLevel_le hb hadaptive hn d

/-- Stage 2 takes a mean of levels of the segment's row (R10 to R12). -/
theorem bentLevel_le (hx : x.sound = true) {d : Side} {n : Nat} (hn : n < segmentCount x.active d) :
    bentLevel x d (n / colCount x.active d) (n % colCount x.active d) ≤ 1023 := by
  have hb := (x.sound_iff.1 hx).1
  have hcols := colCount_pos hb d
  have hcolumn := Nat.mod_lt n hcols
  have hrow : ∀ k, k < colCount x.active d → baseLevel x d (n / colCount x.active d * colCount x.active d + k) ≤ 1023 :=
    fun k hk => baseLevel_le hx d ((row_position_lt hn hk).trans_le (segmentCount_le hb d))
  by_cases hm : x.mode = .normal ∨ x.mode = .hold
  · obtain ⟨-, -, -, -, hmean, -⟩ := shiftInterpolatesRow
      (fun k => baseLevel x d (n / colCount x.active d * colCount x.active d + k)) _ _ (x.shift.get d) hcols hcolumn
    rw [bentLevel_of_shifting hm]
    exact (hmean 0 1023 fun k hk => ⟨Nat.zero_le _, hrow k hk⟩).2
  · simpa only [bentLevel, if_neg hm] using hrow _ hcolumn

/-- The stages 3 to 5 only lower a value (R13, R15, R16). -/
theorem segmentTarget_le_bentLevel (x : CompositionInputs) (d : Side) (r c : Nat) :
    segmentTarget x d r c ≤ bentLevel x d r c := by
  have hderated : ∀ v, deratedLevel x d v ≤ v := fun v => by
    rw [deratedLevel]
    split_ifs
    exacts [min_le_left _ _, le_rfl]
  have hcrowded : ∀ v, crowdedLevel x d r v ≤ v := fun v => by
    rw [crowdedLevel]
    split_ifs
    exacts [min_le_left _ _, le_rfl]
  have hshadow : ∀ v, shadowLevel x d r c v ≤ v := fun v => by
    rw [shadowLevel]
    split_ifs
    exacts [((le_foldl_residual _ _ v).1 le_rfl).1, le_rfl]
  exact (hderated _).trans ((hcrowded _).trans (hshadow _))

/-- Sound inputs give targets within 0..1023 (R87). -/
theorem targetLevel_le (hx : x.sound = true) (d : Side) (n : Nat) : targetLevel x d n ≤ 1023 := by
  by_cases hn : n < segmentCount x.active d
  · rw [targetLevel_of_lt hn]
    exact (segmentTarget_le_bentLevel x d _ _).trans (bentLevel_le hx hn)
  · rw [targetLevel_of_le (Nat.le_of_not_lt hn)]
    exact Nat.zero_le _

theorem targetFrame_levelsOk (hx : x.sound = true) (d : Side) : levelsOk (targetFrame x d).levels = true :=
  levelsOk_map_range fun n _ => targetLevel_le hx d n

end

/-! ### Stepped levels (R81 to R83) -/

/-- A step ends no higher than the level or the target (R83). -/
theorem SegmentRecord.step_level_le (b : BankCopy) (mode : BeamMode) (target : Nat) (flag : Bool) (s : SegmentRecord) :
    (s.step b mode target flag).level ≤ max target s.level := by
  by_cases hm : mode = .test
  · subst hm
    exact le_max_left _ _
  · rw [SegmentRecord.step_of_ne_test hm]
    rcases moveLevel_cases (fallStep b) (riseOf b mode) target s.level (holdAfterFlag b s.lastFlag flag s.hold)
      with ⟨-, e⟩ | ⟨-, e⟩ | ⟨-, e⟩ <;> dsimp only <;> rw [e] <;> omega

theorem stepRecords_levelsOk (b : BankCopy) (mode : BeamMode) {ss : List SegmentRecord} {ts : List Nat} (fs : List Bool)
    (hs : levelsOk (ss.map SegmentRecord.level) = true) (ht : levelsOk ts = true) :
    levelsOk ((stepRecords b mode ss ts fs).map SegmentRecord.level) = true := by
  rw [levelsOk_iff] at hs ht ⊢
  intro v hv
  obtain ⟨r, hr, rfl⟩ := List.mem_map.1 hv
  obtain ⟨n, hn⟩ := List.mem_iff_getElem?.1 hr
  rw [stepRecords_get] at hn
  split at hn
  · rename_i s target flag hsegment htarget _
    cases hn
    exact (s.step_level_le b mode target flag).trans
      (max_le (ht _ (List.mem_of_getElem? htarget)) (hs _ (List.mem_map_of_mem (List.mem_of_getElem? hsegment))))
  · cases hn

end Sys2Proof.Machine
end

section
/-! SUPPORT. The law of the levels (R87): every command keeps the bank, indices, streams, test program, composition inputs,
targets and segment levels of which it speaks. -/

namespace Sys2Proof.Machine

open Sys2Proof

/-! ### The law component by component -/

theorem State.levelLaw_iff (s : State) : s.levelLaw = true ↔
    bankFault s.bank.active = none ∧ (s.motion.lowIndex ≤ 15 ∧ s.motion.adaptiveIndex ≤ 15)
      ∧ (∀ d, levelsOk (s.composer.streams.get d).levels = true) ∧ s.sup.program.all TestProgram.wellFormed = true
      ∧ s.composer.inFlight.all CompositionInputs.sound = true
      ∧ (∀ d, levelsOk (s.composer.targets.get d).levels = true)
      ∧ ∀ d, levelsOk ((s.segments.get d).map SegmentRecord.level) = true := by
  simp only [State.levelLaw, TableBank.activeValid, Side.forall_iff, Sided.get, Bool.and_eq_true, decide_eq_true_eq, and_assoc,
    Option.isNone_iff_eq_none]

/-- An update keeps the law where it keeps each component's part; a component left as it is needs no argument. -/
theorem State.levelLaw_of {s t : State} (h : s.levelLaw = true)
    (hactive : bankFault s.bank.active = none → bankFault t.bank.active = none := by exact fun h => h)
    (hmotion : s.motion.lowIndex ≤ 15 ∧ s.motion.adaptiveIndex ≤ 15 → t.motion.lowIndex ≤ 15 ∧ t.motion.adaptiveIndex ≤ 15 := by
      exact fun h => h)
    (hstreams : ∀ d, levelsOk (s.composer.streams.get d).levels = true → levelsOk (t.composer.streams.get d).levels = true := by
      exact fun _ h => h)
    (hprogram : s.sup.program.all TestProgram.wellFormed = true → t.sup.program.all TestProgram.wellFormed = true := by
      exact fun h => h)
    (hinFlight : s.composer.inFlight.all CompositionInputs.sound = true →
      t.composer.inFlight.all CompositionInputs.sound = true := by exact fun h => h)
    (htargets : ∀ d, levelsOk (s.composer.targets.get d).levels = true → levelsOk (t.composer.targets.get d).levels = true := by
      exact fun _ h => h)
    (hsegments : ∀ d, levelsOk ((s.segments.get d).map SegmentRecord.level) = true →
      levelsOk ((t.segments.get d).map SegmentRecord.level) = true := by exact fun _ h => h) : t.levelLaw = true := by
  rw [State.levelLaw_iff] at h ⊢
  obtain ⟨h1, h2, h3, h4, h5, h6, h7⟩ := h
  exact ⟨hactive h1, hmotion h2, fun d => hstreams d (h3 d), hprogram h4, hinFlight h5, fun d => htargets d (h6 d),
    fun d => hsegments d (h7 d)⟩

/-! ### The mode decision and the tests (R111, R116 to R119) -/

/-- A decision keeps the test program, or clears it on leaving TEST (R112, R119). -/
theorem State.decideMode_program (s : State) :
    s.decideMode.sup.program = s.sup.program ∨ s.decideMode.sup.program = none := by
  rw [State.decideMode, State.enterMode]
  dsimp only
  split_ifs
  · exact .inr rfl
  · exact .inl rfl

theorem State.decideMode_levelLaw {s : State} (h : s.levelLaw = true) : s.decideMode.levelLaw = true := by
  refine State.levelLaw_of h (hprogram := fun hp => ?_)
  rcases s.decideMode_program with e | e <;> rw [e]
  · exact hp
  · rfl

theorem State.withLink_levelLaw {s : State} (h : s.levelLaw = true) (e : LinkEffect) : (s.withLink e).levelLaw = true := by
  have hraised : (({ s with link := e.link } : State).raise e.mask).levelLaw = true := State.levelLaw_of h
  rcases s.withLink_cases e with ⟨-, hl⟩ | ⟨-, hl⟩ <;> rw [hl]
  · exact hraised
  · exact State.decideMode_levelLaw hraised

theorem State.endTest_levelLaw {s : State} (h : s.levelLaw = true) (flagged : Bool) : (s.endTest flagged).levelLaw = true :=
  State.decideMode_levelLaw (State.levelLaw_of h)

theorem State.startTest_levelLaw {s : State} (h : s.levelLaw = true) {p : TestProgram} (hp : p.wellFormed = true) :
    (s.startTest p).levelLaw = true :=
  State.decideMode_levelLaw (State.levelLaw_of h (hprogram := fun _ => hp))

/-! ### Resets -/

/-- A reset under a validated bank gives the levels of the reset state. -/
theorem resetUnder_levelLaw {bank : TableBank} (h : bankFault bank.active = none) (line : Bool) (waiting : List Instr) :
    (resetUnder bank line waiting).levelLaw = true :=
  State.levelLaw_of reset_levelLaw (hactive := fun _ => h)

theorem State.coldReset_levelLaw (s : State) : s.coldReset.levelLaw = true :=
  State.levelLaw_of (resetUnder_levelLaw (bank := TableBank.cold) bankFault_defaults s.sup.lowreqLine s.pending)

theorem State.warmResetNow_levelLaw {s : State} (h : s.levelLaw = true) : s.warmResetNow.levelLaw = true :=
  resetUnder_levelLaw (bank := s.bank.warm) (s.levelLaw_iff.1 h).1 _ _

/-! ### The downstream link -/

theorem State.startReceived_levelLaw {s : State} (h : s.levelLaw = true) : s.startReceived.levelLaw = true := by
  rw [State.startReceived]
  split_ifs <;> exact State.levelLaw_of h

theorem State.frameFails_levelLaw {s : State} (h : s.levelLaw = true) (cause : FrameFault) :
    (s.frameFails cause).levelLaw = true := by
  cases cause with
  | startInFrame => exact State.levelLaw_of h
  | overflow => exact State.levelLaw_of h
  | failedCheck data =>
    rw [State.frameFails]
    split_ifs
    · exact State.levelLaw_of h
    · exact h

theorem State.squelched_levelLaw {s : State} (h : s.levelLaw = true) : s.squelched.levelLaw = true := by
  have hdiscarded : (s.frameDiscarded false).levelLaw = true := State.levelLaw_of h
  rw [State.squelched]
  split_ifs
  · exact State.withLink_levelLaw hdiscarded _
  · exact State.withLink_levelLaw h _

/-- The indices of a MOTION payload are halves of a byte (R25). -/
theorem motionOf_indices_le (m : MotionPayload) : (motionOf m).lowIndex ≤ 15 ∧ (motionOf m).adaptiveIndex ≤ 15 := by
  obtain ⟨-, -, -, hindices⟩ := (motionOf m).inRange_iff.1 (motionOf_inRange m)
  exact hindices

theorem State.motionArrives_levelLaw {s : State} (h : s.levelLaw = true) (m : MotionPayload) :
    (s.motionArrives m).levelLaw = true := by
  have hlink := State.withLink_levelLaw (s := { s with
    rx := s.rx.accepted (frameBytes classMotion (motionBytes m)), motion := motionOf m })
    (State.levelLaw_of h (hmotion := fun _ => motionOf_indices_le m))
  rw [State.motionArrives, State.testSpeedCheck]
  split_ifs
  · exact State.endTest_levelLaw (hlink _) _
  · exact hlink _

/-- A streamed buffer is clamped to levels (R8). -/
theorem streamOf_levelsOk (ws : List Word) : levelsOk (streamOf ws).levels = true := by
  refine levelsOk_iff.2 fun v hv => ?_
  obtain ⟨w, -, rfl⟩ := List.mem_map.1 hv
  exact min_le_left _ _

theorem State.patternArrives_levelLaw {s : State} (h : s.levelLaw = true) (p : PatternPayload) (d : Side) :
    (s.patternArrives p d).levelLaw = true := by
  refine State.levelLaw_of h (hstreams := fun e he => ?_)
  by_cases hed : e = d
  · subst hed
    rw [State.patternArrives, Sided.get_set_same]
    exact streamOf_levelsOk _
  · rwa [State.patternArrives, Sided.get_set_of_ne _ hed]

theorem State.patternFrame_levelLaw {s : State} (h : s.levelLaw = true) (p : PatternPayload) :
    (s.patternFrame p).levelLaw = true := by
  rw [State.patternFrame]
  split
  · split_ifs
    · exact State.patternArrives_levelLaw h p _
    · exact State.levelLaw_of h
  · exact State.levelLaw_of h

theorem State.lowreqTaken_levelLaw {s : State} (h : s.levelLaw = true) : s.lowreqTaken.levelLaw = true := by
  rw [State.lowreqTaken]
  split
  · exact h
  · exact State.decideMode_levelLaw (State.levelLaw_of h)

theorem State.lowreqLineTo_levelLaw {s : State} (h : s.levelLaw = true) (active : Bool) :
    (s.lowreqLineTo active).levelLaw = true := by
  rw [State.lowreqLineTo]
  split_ifs
  · exact h
  all_goals exact State.levelLaw_of h

/-! ### Composition and the output frame event (R3, R18, R81, R154) -/

/-- Composition complete hands on targets of sound inputs, and the records step toward them (R18, R81). -/
theorem State.completeComposition_levelLaw {s : State} (h : s.levelLaw = true) : s.completeComposition.levelLaw = true := by
  cases hf : s.composer.inFlight with
  | none => rwa [State.completeComposition_none hf]
  | some x =>
    obtain ⟨-, -, -, -, hsound, -⟩ := s.levelLaw_iff.1 h
    rw [hf] at hsound
    rw [State.completeComposition_some hf]
    refine State.levelLaw_of h (hinFlight := fun _ => rfl) (htargets := fun d _ => ?_) (hsegments := fun d hd => ?_)
    · rw [State.raise_composer, Sided.get_of]
      exact targetFrame_levelsOk hsound d
    · rw [State.raise_segments, Sided.get_of]
      exact stepRecords_levelsOk _ _ _ hd (targetFrame_levelsOk hsound d)

/-- A commit applies a validated STAGED or leaves ACTIVE (R155). -/
theorem State.commitAtEvent_levelLaw {s : State} (h : s.levelLaw = true) : s.commitAtEvent.levelLaw = true := by
  rcases s.commitAtEvent_cases with ⟨-, hs⟩ | ⟨id, off, -, -, hs⟩ | ⟨-, hvalid, hs⟩ <;> rw [hs]
  · exact h
  · exact State.levelLaw_of h
  · refine State.withLink_levelLaw (State.levelLaw_of h (hactive := fun _ => ?_)) _
    exact hvalid

theorem State.atDecisions_levelLaw {s : State} (h : s.levelLaw = true) (cause : FrameCause) :
    (s.atDecisions cause).levelLaw = true := by
  have hbegin : (s.completeComposition.beginEvent cause).levelLaw = true :=
    State.levelLaw_of (State.completeComposition_levelLaw h)
  exact State.levelLaw_of (State.commitAtEvent_levelLaw hbegin)

theorem State.testAtEvent_levelsOk {s : State} (h : s.levelLaw = true) (d : Side) :
    levelsOk (s.testAtEvent.get d) = true := by
  obtain ⟨hb, -, -, hprogram, -⟩ := s.levelLaw_iff.1 h
  rw [State.testAtEvent]
  split_ifs
  · rw [Sided.get_of]
    exact testPatternOf_levelsOk hb hprogram d
  · rw [Sided.get_both]
    exact levelsOk_replicate_zero _

/-- Composition takes sound inputs from a state that meets the law (R3). -/
theorem State.inputsAtEvent_sound {s : State} (h : s.levelLaw = true) : s.inputsAtEvent.sound = true := by
  obtain ⟨hb, ⟨hlow, hadaptive⟩, hstreams, -⟩ := s.levelLaw_iff.1 h
  exact s.inputsAtEvent.sound_iff.2 ⟨hb, hlow, hadaptive, hstreams, State.testAtEvent_levelsOk h⟩

/-- The program's advance leaves the program (R121). -/
theorem Supervisor.advance_program (b : BankCopy) (u : Supervisor) : (u.advance b).program = u.program := by
  rw [Supervisor.advance]
  split
  · split_ifs <;> rfl
  · rfl

theorem State.frameDecisions_program (s : State) : s.frameDecisions.sup.program = s.sup.program := by
  rw [State.frameDecisions]
  dsimp only
  split_ifs
  · exact Supervisor.advance_program _ _
  · rfl

theorem State.frameDecisions_levelLaw {s : State} (h : s.levelLaw = true) : s.frameDecisions.levelLaw = true := by
  refine State.levelLaw_of h (hstreams := fun d hd => ?_) (hprogram := fun hp => ?_)
    (hinFlight := fun _ => State.inputsAtEvent_sound h)
  · rw [State.frameDecisions, Sided.get_of]
    exact hd
  · rwa [s.frameDecisions_program]

theorem State.Admits.levelLaw {s t : State} (ht : s.Admits t) (h : s.levelLaw = true) : t.levelLaw = true := by
  obtain ⟨added, status, report, ports, rfl, -⟩ := ht
  exact State.levelLaw_of h

theorem State.outputFrameEvent_levelLaw {s : State} (h : s.levelLaw = true) (cause : FrameCause) :
    (s.outputFrameEvent cause).levelLaw = true := by
  have hdecisions := State.frameDecisions_levelLaw (State.atDecisions_levelLaw h cause)
  rw [State.outputFrameEvent_eq]
  exact (State.statusAtEvent_admits _ _).levelLaw (State.levelLaw_of hdecisions)

theorem State.timerExpiry_levelLaw {s : State} (h : s.levelLaw = true) : s.timerExpiry.levelLaw = true :=
  State.outputFrameEvent_levelLaw (State.levelLaw_of h) _

theorem State.syncEdgeArrives_levelLaw {s : State} (h : s.levelLaw = true) (edge : SyncEdge) :
    (s.syncEdgeArrives edge).levelLaw = true := by
  rw [State.syncEdgeArrives]
  split_ifs
  · exact State.outputFrameEvent_levelLaw h _
  · exact State.levelLaw_of h
  · exact h

theorem State.strobeEnds_levelLaw {s : State} (h : s.levelLaw = true) : s.strobeEnds.levelLaw = true := by
  rw [State.strobeEnds]
  split_ifs
  · exact State.levelLaw_of h
  · exact h

/-! ### The lamp buses and the upstream queue -/

theorem State.busEvent_levelLaw {s : State} (h : s.levelLaw = true) (d : Side)
    (act : BankCopy → Bool → Port → PortEffect) : (s.busEvent d act).levelLaw = true :=
  (State.admitClaims_admits _).levelLaw (State.levelLaw_of h)

theorem State.headSent_levelLaw {s : State} (h : s.levelLaw = true) : s.headSent.levelLaw = true := by
  rcases s.headSent_cases with ⟨-, hs⟩ | ⟨f, rest, -, -, hs⟩ | ⟨f, rest, -, -, hs⟩ <;> rw [hs]
  · exact h
  · exact State.warmResetNow_levelLaw h
  · exact (State.admitClaims_admits _).levelLaw (State.levelLaw_of h)

theorem State.warmResetDue_levelLaw {s : State} (h : s.levelLaw = true) : s.warmResetDue.levelLaw = true := by
  rw [State.warmResetDue]
  split_ifs
  · exact State.warmResetNow_levelLaw h
  · exact h

/-! ### MANAGE commands (R159) -/

theorem State.manageRecord_levelLaw {run : List Byte → State → CommandEffect}
    (hrun : ∀ params u, u.levelLaw = true → (run params u).state.levelLaw = true) {s : State} (h : s.levelLaw = true)
    (code : Byte) (r : ManageRecord) : (s.manageRecord code r run).levelLaw = true := by
  refine State.manageRecord_keeps (P := fun u => u.levelLaw = true) (fun u tag hu => ?_)
    (fun _ _ hu => State.levelLaw_of hu) (fun _ _ hu => State.levelLaw_of hu) hrun h code r
  rw [State.openFrame]
  split
  · exact hu
  · exact State.levelLaw_of hu

/-- A command without parameters keeps the law where its effect does. -/
theorem withoutParams_levelLaw {run : State → CommandEffect} (hrun : ∀ u, u.levelLaw = true → (run u).state.levelLaw = true)
    (params : List Byte) (s : State) (h : s.levelLaw = true) : (withoutParams run params s).state.levelLaw = true := by
  rw [withoutParams]
  split
  · exact h
  · exact hrun s h

theorem tableWriteCommand_levelLaw (params : List Byte) (s : State) (h : s.levelLaw = true) :
    (tableWriteCommand params s).state.levelLaw = true := by
  rw [tableWriteCommand]
  split
  · exact h
  · split_ifs <;> exact State.levelLaw_of h

theorem tableReadCommand_levelLaw (params : List Byte) (s : State) (h : s.levelLaw = true) :
    (tableReadCommand params s).state.levelLaw = true := by
  rw [tableReadCommand]
  split
  · exact h
  · split_ifs <;> exact h

theorem statusNowCommand_levelLaw (params : List Byte) (s : State) (h : s.levelLaw = true) :
    (statusNowCommand params s).state.levelLaw = true := by
  refine withoutParams_levelLaw (fun u hu => ?_) params s h
  exact (State.admitClaims_admits _).levelLaw (State.levelLaw_of hu)

theorem flagClearCommand_levelLaw (params : List Byte) (s : State) (h : s.levelLaw = true) :
    (flagClearCommand params s).state.levelLaw = true := by
  rw [flagClearCommand]
  split <;> exact State.levelLaw_of h

theorem frameAlignCommand_levelLaw (params : List Byte) (s : State) (h : s.levelLaw = true) :
    (frameAlignCommand params s).state.levelLaw = true := by
  rw [frameAlignCommand]
  split
  · exact h
  · split_ifs <;> exact State.levelLaw_of h

/-- TEST ENTER starts well-formed programs alone (R116, R119). -/
theorem testEnterCommand_levelLaw (params : List Byte) (s : State) (h : s.levelLaw = true) :
    (testEnterCommand params s).state.levelLaw = true := by
  rw [testEnterCommand]
  split
  · exact h
  · split_ifs with hformed
    · exact h
    · exact h
    · exact h
    · exact State.startTest_levelLaw h (by simpa using hformed)

theorem testExitCommand_levelLaw (params : List Byte) (s : State) (h : s.levelLaw = true) :
    (testExitCommand params s).state.levelLaw = true := by
  refine withoutParams_levelLaw (fun u hu => ?_) params s h
  dsimp only
  split_ifs
  · exact State.endTest_levelLaw hu _
  · exact hu

theorem portCommand_levelLaw (act : BankCopy → Port → Port) (params : List Byte) (s : State) (h : s.levelLaw = true) :
    (portCommand act params s).state.levelLaw = true := by
  rw [portCommand]
  split
  · exact h
  · split
    · exact h
    · split_ifs <;> exact State.levelLaw_of h

theorem driverPassCommand_levelLaw (params : List Byte) (s : State) (h : s.levelLaw = true) :
    (driverPassCommand params s).state.levelLaw = true := by
  rw [driverPassCommand]
  split
  · exact h
  · split
    · exact h
    · split_ifs <;> exact State.levelLaw_of h

/-! ### Every command and every step -/

/-- Every command has a next state and keeps the law. -/
theorem exec_levelLaw (c : Instr) (s : State) (h : s.levelLaw = true) : ∃ t, exec c s = .next t ∧ t.levelLaw = true := by
  have hrunning : ∀ {f : State → State}, (f s).levelLaw = true → (s.running f).levelLaw = true :=
    fun hf => State.running_keeps (P := fun u => u.levelLaw = true) h hf
  have hmanage : ∀ {run : List Byte → State → CommandEffect} (code : Byte) (r : ManageRecord),
      (∀ params u, u.levelLaw = true → (run params u).state.levelLaw = true) →
      (s.running fun u => u.manageRecord code r run).levelLaw = true :=
    fun code r hrun => hrunning (State.manageRecord_levelLaw hrun h code r)
  have hbus : ∀ (d : Side) (act : BankCopy → Bool → Port → PortEffect),
      (s.running fun u => u.busEvent d act).levelLaw = true := fun d act => hrunning (State.busEvent_levelLaw h d act)
  cases c with
  | coldReset => exact ⟨_, rfl, s.coldReset_levelLaw⟩
  | resetEnds =>
    refine ⟨_, rfl, ?_⟩
    split_ifs
    · exact State.levelLaw_of h
    · exact h
  | lowreqEdge active => exact ⟨_, rfl, State.lowreqLineTo_levelLaw h active⟩
  | lowreqLevelChange => exact ⟨_, rfl, hrunning (State.lowreqTaken_levelLaw h)⟩
  | lineSquelch => exact ⟨_, rfl, hrunning (State.squelched_levelLaw h)⟩
  | linkFrameError cause => exact ⟨_, rfl, hrunning (State.frameFails_levelLaw h cause)⟩
  | startSymbol => exact ⟨_, rfl, hrunning (State.startReceived_levelLaw h)⟩
  | motionFrame m => exact ⟨_, rfl, hrunning (State.motionArrives_levelLaw h m)⟩
  | sceneFrame p =>
    refine ⟨_, rfl, hrunning ?_⟩
    split_ifs <;> exact State.levelLaw_of h
  | patternFrame p => exact ⟨_, rfl, hrunning (State.patternFrame_levelLaw h p)⟩
  | lapseExpiry => exact ⟨_, rfl, hrunning (State.withLink_levelLaw h _)⟩
  | lossExpiry => exact ⟨_, rfl, hrunning (State.withLink_levelLaw h _)⟩
  | tableWrite r => exact ⟨_, rfl, hmanage _ r tableWriteCommand_levelLaw⟩
  | tableRead r => exact ⟨_, rfl, hmanage _ r tableReadCommand_levelLaw⟩
  | commit r => exact ⟨_, rfl, hmanage _ r (withoutParams_levelLaw fun _ hu => State.levelLaw_of hu)⟩
  | discard r => exact ⟨_, rfl, hmanage _ r (withoutParams_levelLaw fun _ hu => State.levelLaw_of hu)⟩
  | statusNow r => exact ⟨_, rfl, hmanage _ r statusNowCommand_levelLaw⟩
  | flagClear r => exact ⟨_, rfl, hmanage _ r flagClearCommand_levelLaw⟩
  | sceneClear r => exact ⟨_, rfl, hmanage _ r (withoutParams_levelLaw fun _ hu => State.levelLaw_of hu)⟩
  | frameAlign r => exact ⟨_, rfl, hmanage _ r frameAlignCommand_levelLaw⟩
  | testEnter r => exact ⟨_, rfl, hmanage _ r testEnterCommand_levelLaw⟩
  | testExit r => exact ⟨_, rfl, hmanage _ r testExitCommand_levelLaw⟩
  | portHalt r => exact ⟨_, rfl, hmanage _ r (portCommand_levelLaw _)⟩
  | portStop r => exact ⟨_, rfl, hmanage _ r (portCommand_levelLaw _)⟩
  | portResume r => exact ⟨_, rfl, hmanage _ r (portCommand_levelLaw _)⟩
  | driverPass r => exact ⟨_, rfl, hmanage _ r driverPassCommand_levelLaw⟩
  | warmReset r => exact ⟨_, rfl, hmanage _ r (withoutParams_levelLaw fun _ hu => State.levelLaw_of hu)⟩
  | unknownCommand code r => exact ⟨_, rfl, hmanage code r fun _ _ => id⟩
  | upstreamFrameSent => exact ⟨_, rfl, hrunning (State.headSent_levelLaw h)⟩
  | queueClaimEntry => exact ⟨_, rfl, hrunning (s.admitClaims_admits.levelLaw h)⟩
  | warmResetTakesEffect => exact ⟨_, rfl, hrunning (State.warmResetDue_levelLaw h)⟩
  | frameTimerExpiry => exact ⟨_, rfl, hrunning (State.timerExpiry_levelLaw h)⟩
  | fsyncEdge edge => exact ⟨_, rfl, hrunning (State.syncEdgeArrives_levelLaw h edge)⟩
  | strobeEnd => exact ⟨_, rfl, hrunning (State.strobeEnds_levelLaw h)⟩
  | msClockTick => exact ⟨_, rfl, hrunning (State.levelLaw_of h)⟩
  | compositionComplete => exact ⟨_, rfl, hrunning (State.completeComposition_levelLaw h)⟩
  | segmentWriteAck a => exact ⟨_, rfl, hbus _ _⟩
  | registerAck a => exact ⟨_, rfl, hbus _ _⟩
  | nak a => exact ⟨_, rfl, hbus _ _⟩
  | replyTimeout d => exact ⟨_, rfl, hbus _ _⟩

/-- Settles O54: every command keeps the law, and neither the queue of commands nor a tick touches it. -/
theorem stepKeepsLevelLaw : Obligations.StepKeepsLevelLaw := fun _ _ h hst =>
  step_keeps (P := fun s => s.levelLaw = true) (fun _ _ hs => State.levelLaw_of hs) (fun _ _ hs => State.levelLaw_of hs)
    exec_levelLaw h hst

end Sys2Proof.Machine
end

section
/-! SUPPORT. The law of a lamp bus port's record (R92, R97 to R99, R105): what it says by the transaction on the bus, and that
every operation of a port keeps it. -/

namespace Sys2Proof.Machine

open Sys2Proof

/-! ### The law of the record in its parts -/

/-- The frame in flight is a consistent delivery with at least one item begun, and the remainder, where there is one, is what is
left of it (R92, R97, R105). -/
structure Delivery.Fits (f : Delivery) (remainder : List TransferItem) : Prop where
  items : itemsLaw f.items = true
  begun : 1 ≤ f.position
  within : f.position ≤ f.items.length
  left : remainder = [] ∨ remainder = f.items.drop f.position

/-- No item is on the bus: a frame in flight has items left, and without one there is no remainder (R92, R99). -/
def Port.BetweenItems (p : Port) : Prop :=
  (p.inFlight = none → p.remainder = []) ∧ ∀ f, p.inFlight = some f → f.Fits p.remainder ∧ f.position < f.items.length

/-- What the port's state says of its frames: an IDLE or HALTED port has none, and a STOPPED port has none pending and keeps
what is left of the one in flight (R98, R104, R105). -/
def Port.FramesFit (p : Port) : Prop :=
  (p.state = .idle ∨ p.state = .halted → p.inFlight = none ∧ p.pendingFrame = none)
    ∧ (p.state = .stopped → p.pendingFrame = none ∧ ∀ f, p.inFlight = some f → p.remainder = f.items.drop f.position)

/-- The transaction agrees with the port's state, frame and pass-through slot (R92, R98, R101). -/
def Port.BusFits (p : Port) : Prop :=
  match p.txn with
  | .quiet =>
    p.pass.isInProgress = false ∧ p.pass.isWaiting = false ∧ p.BetweenItems ∧ p.state ≠ .sending ∧ p.state ≠ .halting
  | .item it _ _ =>
    p.pass.isInProgress = false ∧ ∃ f, p.inFlight = some f ∧ f.Fits p.remainder ∧ f.items[f.position - 1]? = some it
  | .pass _ _ _ => p.pass.isInProgress = true ∧ p.BetweenItems ∧ p.state ≠ .idle

theorem PassSlot.isWaiting_eq_false {slot : PassSlot} (h : ∀ r, slot = .waiting r → False) : slot.isWaiting = false := by
  cases slot with
  | waiting r => exact (h r rfl).elim
  | _ => rfl

theorem Delivery.fits_iff (f : Delivery) (remainder : List TransferItem) : f.Fits remainder ↔
    itemsLaw f.items = true ∧ 1 ≤ f.position ∧ f.position ≤ f.items.length
      ∧ (remainder = [] ∨ remainder = f.items.drop f.position) :=
  ⟨fun h => ⟨h.items, h.begun, h.within, h.left⟩, fun ⟨items, begun, within, left⟩ => ⟨items, begun, within, left⟩⟩

theorem Port.flightLaw_iff (p : Port) : p.flightLaw = true ↔
    (p.inFlight = none → p.remainder = [] ∧ p.txn.isItem = false)
      ∧ ∀ f, p.inFlight = some f → f.Fits p.remainder ∧ (p.txn.isItem = true ∨ f.position < f.items.length) := by
  cases hf : p.inFlight with
  | none => simp [Port.flightLaw, hf]
  | some f =>
    simp only [Port.flightLaw, hf, Bool.and_eq_true, Bool.or_eq_true, decide_eq_true_eq, Delivery.fits_iff, reduceCtorEq,
      false_implies, true_and, Option.some.injEq, forall_eq']
    tauto

theorem Port.stateLaw_iff (p : Port) : p.stateLaw = true ↔
    p.FramesFit ∧ (p.txn = .quiet → p.state ≠ .sending ∧ p.state ≠ .halting ∧ p.pass.isWaiting = false)
      ∧ (p.state = .idle → p.txn = .quiet) := by
  cases hs : p.state <;> cases hw : p.pass.isWaiting <;>
    simp [Port.stateLaw, Port.FramesFit, hs, hw, and_assoc, and_comm, Option.all_eq_true]

/-- The law of a port's record: its state agrees with its frames, and its transaction with the rest. -/
theorem Port.law_iff (p : Port) : p.law = true ↔ p.FramesFit ∧ p.BusFits := by
  simp only [Port.law, Bool.and_eq_true, Port.flightLaw_iff, Port.stateLaw_iff]
  cases ht : p.txn with
  | quiet =>
    simp only [Port.busLaw, Port.BusFits, Port.BetweenItems, Transaction.isItem, ht, Bool.not_eq_true', and_true,
      Bool.false_eq_true, false_or, true_implies, implies_true]
    tauto
  | item it n timeout =>
    simp only [Port.busLaw, Port.BusFits, ht, Transaction.isItem, Bool.and_eq_true, Option.any_eq_true, Bool.not_eq_true',
      beq_iff_eq, reduceCtorEq, and_false, imp_false, true_or, and_true, false_implies, true_and]
    constructor
    · rintro ⟨⟨⟨hslot, f, hf, hit⟩, -, hfits⟩, hframes, -⟩
      exact ⟨hframes, hslot, f, hf, hfits f hf, hit⟩
    · rintro ⟨hframes, hslot, f, hf, hfits, hit⟩
      have hsome : p.inFlight ≠ none := by simp [hf]
      refine ⟨⟨⟨hslot, f, hf, hit⟩, hsome, fun g hg => ?_⟩, hframes, fun hs => hsome (hframes.1 (.inl hs)).1⟩
      obtain rfl : f = g := Option.some.inj (hf.symm.trans hg)
      exact hfits
  | pass address n timeout =>
    simp only [Port.busLaw, Port.BusFits, Port.BetweenItems, Transaction.isItem, ht, and_true, Bool.false_eq_true, false_or,
      reduceCtorEq, false_implies, true_and, imp_false]
    tauto

/-! ### The law by the transaction on the bus (R92) -/

section
variable {p : Port}

theorem Port.law_iff_of_quiet (h : p.txn = .quiet) : p.law = true ↔
    p.FramesFit ∧ p.pass.isInProgress = false ∧ p.pass.isWaiting = false ∧ p.BetweenItems ∧ p.state ≠ .sending
      ∧ p.state ≠ .halting := by
  rw [Port.law_iff, Port.BusFits, h]

theorem Port.law_iff_of_item {it : TransferItem} {n timeout : Nat} (h : p.txn = .item it n timeout) :
    p.law = true ↔ p.FramesFit ∧ p.pass.isInProgress = false
      ∧ ∃ f, p.inFlight = some f ∧ f.Fits p.remainder ∧ f.items[f.position - 1]? = some it := by
  rw [Port.law_iff, Port.BusFits, h]

theorem Port.law_iff_of_pass {address n timeout : Nat} (h : p.txn = .pass address n timeout) :
    p.law = true ↔ p.FramesFit ∧ p.pass.isInProgress = true ∧ p.BetweenItems ∧ p.state ≠ .idle := by
  rw [Port.law_iff, Port.BusFits, h]

theorem Port.law_of_quiet (h : p.txn = .quiet) (hframes : p.FramesFit) (hslot : p.pass.isInProgress = false)
    (hwait : p.pass.isWaiting = false) (hbetween : p.BetweenItems) (hstate : p.state ≠ .sending ∧ p.state ≠ .halting) :
    p.law = true :=
  (Port.law_iff_of_quiet h).2 ⟨hframes, hslot, hwait, hbetween, hstate⟩

theorem Port.law_of_item {it : TransferItem} {n timeout : Nat} {f : Delivery} (h : p.txn = .item it n timeout)
    (hframes : p.FramesFit) (hslot : p.pass.isInProgress = false) (hf : p.inFlight = some f) (hfits : f.Fits p.remainder)
    (hit : f.items[f.position - 1]? = some it) : p.law = true :=
  (Port.law_iff_of_item h).2 ⟨hframes, hslot, f, hf, hfits, hit⟩

theorem Port.law_of_pass {address n timeout : Nat} (h : p.txn = .pass address n timeout) (hframes : p.FramesFit)
    (hslot : p.pass.isInProgress = true) (hbetween : p.BetweenItems) (hstate : p.state ≠ .idle) : p.law = true :=
  (Port.law_iff_of_pass h).2 ⟨hframes, hslot, hbetween, hstate⟩

end

/-- A SENDING or HALTING port is under no obligation by its state alone (R98). -/
theorem Port.framesFit_of_sending {p : Port} (h : p.state = .sending ∨ p.state = .halting) : p.FramesFit := by
  rcases h with h | h <;> simp [Port.FramesFit, h]

theorem Port.betweenItems_of_none {p : Port} (h : p.inFlight = none) (hrem : p.remainder = []) : p.BetweenItems :=
  ⟨fun _ => hrem, fun f hf => by rw [h] at hf; cases hf⟩

/-! ### Transfer lists (R97) -/

theorem itemsLaw_iff (items : List TransferItem) : itemsLaw items = true ↔
    (items.map TransferItem.chip).Nodup ∧ (∀ it ∈ items, 1 ≤ it.chip ∧ it.chip ≤ 4)
      ∧ items.map TransferItem.last = (List.range items.length).map (fun i => decide (i + 1 = items.length)) := by
  simp [itemsLaw, within, and_assoc]

theorem transferList_itemsLaw (b : BankCopy) (d : Side) (chips : List ChipRecord) (number : Word) :
    itemsLaw (transferList b d chips number) = true := by
  refine (itemsLaw_iff _).2 ⟨transferList_nodup b d chips number, fun it hit => ?_, transferList_last b d chips number⟩
  have hchip := (mem_transferList hit).1
  simp only [List.mem_cons, List.not_mem_nil, or_false] at hchip
  omega

/-- The item marked LAST is the last of its list (R97). -/
theorem last_iff_of_itemsLaw {items : List TransferItem} (h : itemsLaw items = true) {i : Nat} {it : TransferItem}
    (hi : items[i]? = some it) : it.last = true ↔ i + 1 = items.length := by
  obtain ⟨-, -, hlast⟩ := (itemsLaw_iff items).1 h
  have hlt : i < items.length := (List.getElem?_eq_some_iff.1 hi).1
  have hget := congrArg (fun l => l[i]?) hlast
  simp only [List.getElem?_map, hi, List.getElem?_range hlt, Option.map_some, Option.some.injEq] at hget
  rw [hget, decide_eq_true_eq]

/-! ### Ports with nothing on the bus (R99) -/

/-- Nothing is on the bus, and no frame is in flight. -/
structure Port.Free (p : Port) : Prop where
  txn : p.txn = .quiet
  inFlight : p.inFlight = none
  remainder : p.remainder = []
  slot : p.pass.isInProgress = false

theorem Port.start_law (b : BankCopy) (d : Side) (f : OutputFrame) {p : Port} (h : p.Free) (hwait : p.pass.isWaiting = false)
    (hpending : p.pendingFrame = none) : (p.start b d f).law = true := by
  rcases p.start_cases b d f with ⟨-, hstart⟩ | ⟨it, rest, hlist, hstart⟩ <;> rw [hstart]
  · exact Port.law_of_quiet h.txn ⟨fun _ => ⟨rfl, hpending⟩, nofun⟩ h.slot hwait
      (Port.betweenItems_of_none rfl h.remainder) ⟨nofun, nofun⟩
  · have hitems := transferList_itemsLaw b d p.chips f.number
    rw [hlist] at hitems
    exact Port.law_of_item rfl (Port.framesFit_of_sending (.inl rfl)) h.slot rfl
      ⟨hitems, le_rfl, Nat.le_add_left 1 _, .inl h.remainder⟩ rfl

theorem Port.takePending_law (b : BankCopy) (d : Side) {p : Port} (h : p.Free) (hwait : p.pass.isWaiting = false) :
    (p.takePending b d).law = true := by
  rw [Port.takePending]
  split
  · exact Port.start_law b d _ ⟨h.txn, h.inFlight, h.remainder, h.slot⟩ hwait rfl
  · rename_i hpending
    exact Port.law_of_quiet h.txn ⟨fun _ => ⟨h.inFlight, hpending⟩, nofun⟩ h.slot hwait
      (Port.betweenItems_of_none h.inFlight h.remainder) ⟨nofun, nofun⟩

theorem Port.goOn_law (b : BankCopy) (d : Side) {p : Port} (h : p.Free) : (p.goOn b d).law = true := by
  rw [Port.goOn]
  split
  · rw [Port.perform]
    split
    · exact Port.takePending_law b d ⟨h.txn, h.inFlight, h.remainder, rfl⟩ rfl
    · exact Port.law_of_pass rfl (Port.framesFit_of_sending (.inl rfl)) rfl
        (Port.betweenItems_of_none h.inFlight h.remainder) nofun
  · rename_i hwait
    exact Port.takePending_law b d ⟨h.txn, h.inFlight, h.remainder, h.slot⟩ (PassSlot.isWaiting_eq_false hwait)

/-- An IDLE, HALTED or STOPPED port performs a WAITING pass-through at once (R99, R101). -/
theorem Port.performWaiting_law (b : BankCopy) (d : Side) {p : Port} (htxn : p.txn = .quiet)
    (hslot : p.pass.isInProgress = false) (hframes : p.FramesFit) (hbetween : p.BetweenItems)
    (hstate : p.state ≠ .sending ∧ p.state ≠ .halting) : (p.performWaiting b d).law = true := by
  rw [Port.performWaiting]
  split
  · rw [Port.perform]
    split
    · exact Port.law_of_quiet htxn hframes rfl rfl hbetween hstate
    · split_ifs with hidle
      · exact Port.law_of_pass rfl (Port.framesFit_of_sending (.inl rfl)) rfl hbetween nofun
      · exact Port.law_of_pass rfl hframes rfl hbetween hidle
  · rename_i hwait
    exact Port.law_of_quiet htxn hframes hslot (PassSlot.isWaiting_eq_false hwait) hbetween hstate

/-- The steps 2 to 4 of R99; a SENDING or HALTING port comes to them with nothing in flight. -/
theorem Port.settle_law (b : BankCopy) (d : Side) (test : Bool) {p : Port} (htxn : p.txn = .quiet)
    (hslot : p.pass.isInProgress = false) (hframes : p.FramesFit) (hbetween : p.BetweenItems)
    (hnone : p.state = .sending ∨ p.state = .halting → p.inFlight = none) : (p.settle b d test).law = true := by
  have hgoOn : p.state = .sending ∨ p.state = .halting → (p.goOn b d).law = true := fun hs =>
    Port.goOn_law b d ⟨htxn, hnone hs, hbetween.1 (hnone hs), hslot⟩
  rw [Port.settle]
  split
  · exact hgoOn (.inl ‹_›)
  · rename_i hs
    split_ifs
    · have hhalted : Port.FramesFit { p with state := .halted, pendingFrame := none } :=
        ⟨fun _ => ⟨hnone (.inr hs), rfl⟩, nofun⟩
      exact Port.performWaiting_law b d htxn hslot hhalted hbetween ⟨nofun, nofun⟩
    · exact hgoOn (.inr hs)
  · rename_i hsending hhalting
    exact Port.performWaiting_law b d htxn hslot hframes hbetween ⟨hsending, hhalting⟩

/-! ### The end of an item or a pass-through (R99, R105, R106) -/

/-- The next item begins: it is the one after those begun, and the remainder loses it (R99, R106). -/
theorem Port.nextItem_law {b : BankCopy} {p q : Port} (hslot : p.pass.isInProgress = false) (hbetween : p.BetweenItems)
    (hstate : p.state = .sending ∨ p.state = .halting) (h : p.nextItem b = some q) : q.law = true := by
  obtain ⟨f, it, hf, hit, rfl⟩ := Port.nextItem_some h
  obtain ⟨hfits, hlt⟩ := hbetween.2 f hf
  refine Port.law_of_item rfl (Port.framesFit_of_sending hstate) hslot rfl ⟨hfits.items, Nat.le_add_left 1 _, hlt, ?_⟩ hit
  rcases hfits.left with hrem | hrem
  · exact .inl (by simp [hrem])
  · exact .inr (by simp [hrem])

/-- No next item is left only where nothing is in flight. -/
theorem Port.inFlight_of_nextItem_none {b : BankCopy} {p : Port} (hbetween : p.BetweenItems) (h : p.nextItem b = none) :
    p.inFlight = none := by
  rcases Port.nextItem_none h with hf | ⟨f, hf, hle⟩
  · exact hf
  · exact absurd (hbetween.2 f hf).2 (Nat.not_lt.2 hle)

/-- What the end of an item comes to (R99, R105): the frame complete and the port going on; a STOPPED port going on with its
frame in flight; or the next item. -/
theorem Port.itemEnded_cases (b : BankCopy) (d : Side) (test : Bool) (it : TransferItem) (p : Port) :
    (p.itemEnded b d test it
        = Port.settle b d test { p with
            txn := .quiet, derate := p.derate && p.warningSeen, inFlight := none
            remainder := if p.state = .stopped then [] else p.remainder }
      ∧ (it.last = false → p.state ≠ .stopped ∧ Port.nextItem b { p with txn := .quiet } = none))
    ∨ (it.last = false ∧ p.state = .stopped ∧ p.itemEnded b d test it = Port.settle b d test { p with txn := .quiet })
    ∨ (it.last = false ∧ p.state ≠ .stopped ∧ Port.nextItem b { p with txn := .quiet } = some (p.itemEnded b d test it)) := by
  by_cases hs : p.state = .stopped
  · cases hl : it.last
    · exact .inr (.inl ⟨rfl, hs, by simp [Port.itemEnded, Port.settle, hs, hl]⟩)
    · exact .inl ⟨by simp [Port.itemEnded, Port.settle, Port.complete, hs, hl], nofun⟩
  · cases hl : it.last
    · cases hn : Port.nextItem b { p with txn := .quiet } with
      | none => exact .inl ⟨by simp [Port.itemEnded, Port.complete, hs, hl, hn], fun _ => ⟨hs, rfl⟩⟩
      | some next => exact .inr (.inr ⟨rfl, hs, by simp [Port.itemEnded, hs, hl, hn]⟩)
    · exact .inl ⟨by simp [Port.itemEnded, Port.complete, hs, hl], nofun⟩

theorem Port.itemEnded_law (b : BankCopy) (d : Side) (test : Bool) {p : Port} {it : TransferItem} {n timeout : Nat}
    (h : p.law = true) (htxn : p.txn = .item it n timeout) : (p.itemEnded b d test it).law = true := by
  obtain ⟨hframes, hslot, f, hf, hfits, hit⟩ := (Port.law_iff_of_item htxn).1 h
  have hbegun := hfits.begun
  have hwithin := hfits.within
  have hlast : it.last = true ↔ f.position = f.items.length := by
    rw [last_iff_of_itemsLaw hfits.items hit]
    omega
  -- an item not marked LAST leaves items of its frame to begin
  have hbetween : it.last = false → Port.BetweenItems { p with txn := .quiet } := fun hl => by
    refine ⟨fun hnone => absurd (hf.symm.trans hnone) nofun, fun g hg => ?_⟩
    obtain rfl : f = g := Option.some.inj (hf.symm.trans hg)
    exact ⟨hfits, by simp only [hl, Bool.false_eq_true, false_iff] at hlast; omega⟩
  rcases p.itemEnded_cases b d test it with ⟨he, hnext⟩ | ⟨hl, hs, he⟩ | ⟨hl, hs, hn⟩
  · have hl : it.last = true := by
      by_contra hl
      rw [Bool.not_eq_true] at hl
      exact absurd (hf.symm.trans (Port.inFlight_of_nextItem_none (hbetween hl) (hnext hl).2)) nofun
    -- after the LAST item nothing is left of the frame
    have hnil : p.remainder = [] := by
      have hleft := hfits.left
      rwa [hlast.1 hl, List.drop_length, or_self] at hleft
    rw [he]
    refine Port.settle_law b d test rfl hslot ⟨fun hi => ⟨rfl, (hframes.1 hi).2⟩, fun hs => ⟨(hframes.2 hs).1, nofun⟩⟩
      (Port.betweenItems_of_none rfl ?_) fun _ => rfl
    dsimp only
    split_ifs
    · rfl
    · exact hnil
  · rw [he]
    refine Port.settle_law b d test rfl hslot hframes (hbetween hl) fun hsend => ?_
    exact absurd hsend (by simp [hs])
  · refine Port.nextItem_law hslot (hbetween hl) ?_ hn
    cases hstate : p.state with
    | idle => exact absurd (hf.symm.trans (hframes.1 (.inl hstate)).1) nofun
    | halted => exact absurd (hf.symm.trans (hframes.1 (.inr hstate)).1) nofun
    | stopped => exact absurd hstate hs
    | sending => exact .inl rfl
    | halting => exact .inr rfl

/-- A SENDING or HALTING port then begins the next item of its frame or goes on, and any other keeps its state (R99, R106). -/
theorem Port.passEnded_law (b : BankCopy) (d : Side) (test : Bool) (result : Option Word) {p : Port}
    {address n timeout : Nat} (h : p.law = true) (htxn : p.txn = .pass address n timeout) :
    (p.passEnded b d test result).law = true := by
  obtain ⟨hframes, hslot, hbetween, hidle⟩ := (Port.law_iff_of_pass htxn).1 h
  obtain ⟨r, hr⟩ : ∃ r, p.pass = .inProgress r := by
    cases hp : p.pass with
    | inProgress r => exact ⟨r, rfl⟩
    | _ => rw [hp] at hslot; cases hslot
  rw [Port.passEnded, hr]
  dsimp only
  split_ifs with hs hsome
  · split
    · exact Port.nextItem_law (p := { p with txn := .quiet, pass := .held r result }) rfl hbetween hs ‹_›
    · rename_i hn
      exact absurd (Port.inFlight_of_nextItem_none (p := { p with txn := .quiet, pass := .held r result }) hbetween hn)
        (Option.isSome_iff_ne_none.1 hsome)
  · split
    · exact Port.nextItem_law (p := { p with txn := .quiet, pass := .held r result }) rfl hbetween hs ‹_›
    · exact Port.settle_law b d test rfl rfl hframes hbetween fun _ => by simpa using hsome
  · exact Port.law_of_quiet rfl hframes rfl rfl hbetween (not_or.1 hs)

/-! ### Events on the bus (R95, R96, R102) -/

theorem Port.attemptFailed_law (b : BankCopy) (d : Side) (test : Bool) {p : Port} (h : p.law = true) :
    (p.attemptFailed b d test).port.law = true := by
  rw [Port.attemptFailed]
  split
  · exact h
  · rename_i it n timeout htxn
    split_ifs
    · obtain ⟨hframes, hslot, f, hf, hfits, hit⟩ := (Port.law_iff_of_item htxn).1 h
      exact Port.law_of_item rfl hframes hslot hf hfits hit
    · exact Port.itemEnded_law b d test (p := { p with chips := changeChip p.chips it ChipRecord.skipped }) h htxn
  · rename_i address n timeout htxn
    split_ifs
    · obtain ⟨hframes, hslot, hbetween, hidle⟩ := (Port.law_iff_of_pass htxn).1 h
      exact Port.law_of_pass rfl hframes hslot hbetween hidle
    · exact Port.passEnded_law b d test none h htxn

/-- An answered item changes its chip record and the warnings besides, at which the law does not look (R96, R100). -/
theorem Port.itemAnswered_law (b : BankCopy) (d : Side) (test : Bool) (a : SegmentAck) {p : Port} {it : TransferItem}
    {n timeout : Nat} (h : p.law = true) (htxn : p.txn = .item it n timeout) :
    (p.itemAnswered b d test it a).port.law = true :=
  Port.itemEnded_law b d test
    (p := { p with
      chips := changeChip p.chips it (ChipRecord.answered a)
      derate := p.derate || a.thermalWarn, warningSeen := p.warningSeen || a.thermalWarn }) h htxn

/-! ### Frames, pass-throughs, port control and commits (R98, R101, R103 to R107) -/

/-- An IDLE port has nothing on its bus and nothing in flight, and no pass-through waits (R98, R101). -/
theorem Port.free_of_idle {p : Port} (h : p.law = true) (hs : p.state = .idle) : p.Free ∧ p.pass.isWaiting = false := by
  have hframes := ((Port.law_iff p).1 h).1
  have hnone := (hframes.1 (.inl hs)).1
  cases ht : p.txn with
  | quiet =>
    obtain ⟨-, hslot, hwait, hbetween, -⟩ := (Port.law_iff_of_quiet ht).1 h
    exact ⟨⟨ht, hnone, hbetween.1 hnone, hslot⟩, hwait⟩
  | item it n timeout =>
    obtain ⟨-, -, f, hf, -⟩ := (Port.law_iff_of_item ht).1 h
    exact absurd (hf.symm.trans hnone) nofun
  | pass address n timeout =>
    obtain ⟨-, -, -, hidle⟩ := (Port.law_iff_of_pass ht).1 h
    exact absurd hs hidle

/-- An update that leaves the bus, the frame in flight and its remainder keeps the law where the new state, pending frame and
slot agree with them (R92, R98). -/
theorem Port.law_of_sameBus {p q : Port} (h : p.law = true)
    (hsame : q.txn = p.txn ∧ q.inFlight = p.inFlight ∧ q.remainder = p.remainder ∧ q.pass.isInProgress = p.pass.isInProgress)
    (hframes : q.FramesFit)
    (hquiet : p.txn = .quiet → q.pass.isWaiting = false ∧ q.state ≠ .sending ∧ q.state ≠ .halting)
    (hbusy : p.txn ≠ .quiet → q.state ≠ .idle) : q.law = true := by
  obtain ⟨htxn, hinFlight, hrem, hpass⟩ := hsame
  have hbetween : p.BetweenItems → q.BetweenItems := fun hb => by
    rwa [Port.BetweenItems, hinFlight, hrem]
  cases ht : p.txn with
  | quiet =>
    obtain ⟨-, hslot, -, hb, -⟩ := (Port.law_iff_of_quiet ht).1 h
    obtain ⟨hwait, hstate⟩ := hquiet ht
    exact Port.law_of_quiet (htxn.trans ht) hframes (hpass.trans hslot) hwait (hbetween hb) hstate
  | item it n timeout =>
    obtain ⟨-, hslot, f, hf, hfits, hit⟩ := (Port.law_iff_of_item ht).1 h
    rw [← hrem] at hfits
    exact Port.law_of_item (htxn.trans ht) hframes (hpass.trans hslot) (hinFlight.trans hf) hfits hit
  | pass address n timeout =>
    obtain ⟨-, hslot, hb, -⟩ := (Port.law_iff_of_pass ht).1 h
    exact Port.law_of_pass (htxn.trans ht) hframes (hpass.trans hslot) (hbetween hb) (hbusy (by simp [ht]))

/-- A SENDING or HALTING port has a transaction on its bus (R98). -/
theorem Port.txn_ne_quiet_of_sending {p : Port} (h : p.law = true) (hs : p.state = .sending ∨ p.state = .halting) :
    p.txn ≠ .quiet := fun ht => by
  obtain ⟨-, -, -, -, hsending, hhalting⟩ := (Port.law_iff_of_quiet ht).1 h
  exact not_or.2 ⟨hsending, hhalting⟩ hs

theorem Port.frameArrives_law (b : BankCopy) (f : OutputFrame) {p : Port} (h : p.law = true) :
    (p.frameArrives b f).port.law = true := by
  have hpending : p.state = .sending ∨ p.state = .halting → (p.frameArrives b f).port.law = true := fun hs => by
    rw [Port.frameArrives_pending b f hs]
    refine Port.law_of_sameBus h ⟨rfl, rfl, rfl, rfl⟩ (Port.framesFit_of_sending hs)
      (fun ht => absurd ht (Port.txn_ne_quiet_of_sending h hs)) fun _ hidle => ?_
    exact absurd hs (by simp [show p.state = .idle from hidle])
  cases hs : p.state with
  | idle =>
    obtain ⟨hfree, hwait⟩ := Port.free_of_idle h hs
    simp only [Port.frameArrives, hs]
    exact Port.start_law b f.side f hfree hwait (((Port.law_iff p).1 h).1.1 (.inl hs)).2
  | sending => exact hpending (.inl hs)
  | halting => exact hpending (.inr hs)
  | halted => rwa [Port.frameArrives_discarded b f (.inl hs)]
  | stopped => rwa [Port.frameArrives_discarded b f (.inr hs)]

/-- A request takes an EMPTY slot: it waits while the bus is busy, and is performed at once where it is not (R101). -/
theorem Port.queuePass_law (b : BankCopy) (d : Side) (r : PassRequest) {p : Port} (h : p.law = true)
    (hempty : p.pass = .empty) : (p.queuePass b d r).law = true := by
  have hframes := ((Port.law_iff p).1 h).1
  have hslot : p.pass.isInProgress = false := by rw [hempty]; rfl
  rw [Port.queuePass]
  by_cases ht : p.txn = .quiet
  · obtain ⟨-, -, -, hbetween, hstate⟩ := (Port.law_iff_of_quiet ht).1 h
    have hrest : p.state = .idle ∨ p.state = .halted ∨ p.state = .stopped := by
      cases hs : p.state <;> simp [hs] at hstate ⊢
    rw [if_pos ⟨hrest, ht⟩]
    exact Port.performWaiting_law b d (p := { p with pass := .waiting r }) ht rfl hframes hbetween hstate
  · rw [if_neg fun hc => ht hc.2]
    refine Port.law_of_sameBus h ⟨rfl, rfl, rfl, hslot.symm⟩ hframes (fun hq => absurd hq ht) fun _ hidle => ?_
    exact ht (Port.free_of_idle h hidle).1.txn

theorem Port.halt_law {p : Port} (h : p.law = true) : p.halt.law = true := by
  rw [Port.halt]
  split
  · rename_i hs
    obtain ⟨hfree, hwait⟩ := Port.free_of_idle h hs
    have hpending := (((Port.law_iff p).1 h).1.1 (.inl hs)).2
    exact Port.law_of_sameBus h ⟨rfl, rfl, rfl, rfl⟩ ⟨fun _ => ⟨hfree.inFlight, hpending⟩, nofun⟩
      (fun _ => ⟨hwait, nofun, nofun⟩) fun _ => nofun
  · rename_i hs
    exact Port.law_of_sameBus h ⟨rfl, rfl, rfl, rfl⟩ (Port.framesFit_of_sending (.inr rfl))
      (fun ht => absurd ht (Port.txn_ne_quiet_of_sending h (.inl hs))) fun _ => nofun
  · exact h

/-- Without a frame in flight there is no remainder (R92). -/
theorem Port.remainder_of_none {p : Port} (h : p.law = true) (hnone : p.inFlight = none) : p.remainder = [] := by
  cases ht : p.txn with
  | quiet =>
    obtain ⟨-, -, -, hbetween, -⟩ := (Port.law_iff_of_quiet ht).1 h
    exact hbetween.1 hnone
  | item it n timeout =>
    obtain ⟨-, -, f, hf, -⟩ := (Port.law_iff_of_item ht).1 h
    exact absurd (hf.symm.trans hnone) nofun
  | pass address n timeout =>
    obtain ⟨-, -, hbetween, -⟩ := (Port.law_iff_of_pass ht).1 h
    exact hbetween.1 hnone

/-- No pass-through waits without a transaction on the bus (R99, R101). -/
theorem Port.notWaiting_of_quiet {p : Port} (h : p.law = true) (ht : p.txn = .quiet) : p.pass.isWaiting = false := by
  obtain ⟨-, -, hwait, -⟩ := (Port.law_iff_of_quiet ht).1 h
  exact hwait

/-- A STOPPED port's remainder is what is left of the frame in flight, if there is one (R105). -/
theorem Port.stop_law {p : Port} (h : p.law = true) : p.stop.law = true := by
  obtain ⟨hframes, -⟩ := (Port.law_iff p).1 h
  rcases p.stop_cases with ⟨-, he⟩ | ⟨hs, he⟩ | ⟨-, ⟨a, n, timeout, htxn⟩, he⟩ | ⟨hs, htxn, he⟩ <;> rw [he]
  · exact h
  · obtain ⟨hnone, hpending⟩ := hframes.1 hs
    exact Port.law_of_sameBus h ⟨rfl, rfl, (Port.remainder_of_none h hnone).symm, rfl⟩
      ⟨nofun, fun _ => ⟨hpending, fun f hf => absurd (hf.symm.trans hnone) nofun⟩⟩
      (fun ht => ⟨Port.notWaiting_of_quiet (p := p) h ht, nofun, nofun⟩) fun _ => nofun
  · obtain ⟨-, hslot, -⟩ := (Port.law_iff_of_pass htxn).1 h
    exact Port.law_of_pass htxn ⟨nofun, fun _ => ⟨rfl, nofun⟩⟩ hslot (Port.betweenItems_of_none rfl rfl) nofun
  · obtain ⟨it, n, timeout, ht⟩ : ∃ it n timeout, p.txn = .item it n timeout := by
      cases ht : p.txn with
      | quiet => exact absurd ht (Port.txn_ne_quiet_of_sending h hs)
      | item it n timeout => exact ⟨it, n, timeout, rfl⟩
      | pass address n timeout => exact absurd ht (htxn _ _ _)
    obtain ⟨-, hslot, f, hf, hfits, hit⟩ := (Port.law_iff_of_item ht).1 h
    have hrem : p.unbegun = f.items.drop f.position := by rw [Port.unbegun, hf]
    refine Port.law_of_item ht ⟨nofun, fun _ => ⟨rfl, fun g hg => ?_⟩⟩ hslot hf
      ⟨hfits.items, hfits.begun, hfits.within, .inr hrem⟩ hit
    obtain rfl : f = g := Option.some.inj (hf.symm.trans hg)
    exact hrem

/-- With a transaction on its bus the port is SENDING again; without one a STOPPED port begins the first item left, and any
other is IDLE (R106). -/
theorem Port.resume_law (b : BankCopy) {p : Port} (h : p.law = true) : (p.resume b).law = true := by
  obtain ⟨hframes, -⟩ := (Port.law_iff p).1 h
  have hsend : p.txn ≠ .quiet → ({ p with state := .sending } : Port).law = true := fun hbusy =>
    Port.law_of_sameBus h ⟨rfl, rfl, rfl, rfl⟩ (Port.framesFit_of_sending (.inl rfl)) (fun ht => absurd ht hbusy) fun _ => nofun
  have hidle : p.txn = .quiet → p.inFlight = none → p.pendingFrame = none →
      ({ p with state := .idle } : Port).law = true := fun ht hnone hpending =>
    Port.law_of_sameBus h ⟨rfl, rfl, rfl, rfl⟩ ⟨fun _ => ⟨hnone, hpending⟩, nofun⟩
      (fun _ => ⟨Port.notWaiting_of_quiet (p := p) h ht, nofun, nofun⟩) fun hbusy => absurd ht hbusy
  rw [Port.resume]
  split
  · rename_i hs
    obtain ⟨hnone, hpending⟩ := hframes.1 (.inr hs)
    split_ifs with ht
    · exact hidle ht hnone hpending
    · exact hsend ht
  · rename_i hs
    split_ifs with ht
    · obtain ⟨-, hslot, -, hbetween, -⟩ := (Port.law_iff_of_quiet ht).1 h
      have hsending : Port.BetweenItems { p with state := .sending } := hbetween
      split
      · rename_i hn
        exact Port.nextItem_law (p := { p with state := .sending }) hslot hsending (.inl rfl) hn
      · rename_i hn
        exact hidle ht (Port.inFlight_of_nextItem_none (p := { p with state := .sending }) hsending hn) (hframes.2 hs).1
    · exact hsend ht
  · exact h

/-- A held result that enters the queue leaves its slot EMPTY (R103). -/
theorem Port.law_of_admitted {p : Port} {r : PassRequest} {result : Option Word} (h : p.law = true)
    (hheld : p.pass = .held r result) : ({ p with pass := .empty } : Port).law = true := by
  have hslot : p.pass.isInProgress = false := by rw [hheld]; rfl
  refine Port.law_of_sameBus h ⟨rfl, rfl, rfl, hslot.symm⟩ ((Port.law_iff p).1 h).1 (fun ht => ⟨rfl, ?_⟩) fun hbusy hidle => ?_
  · obtain ⟨-, -, -, -, hstate⟩ := (Port.law_iff_of_quiet ht).1 h
    exact hstate
  · exact hbusy (Port.free_of_idle h hidle).1.txn

theorem Port.atReset_law (chips : List ChipRecord) : (Port.atReset chips).law = true :=
  Port.law_of_quiet rfl ⟨fun _ => ⟨rfl, rfl⟩, nofun⟩ rfl rfl (Port.betweenItems_of_none rfl rfl) ⟨nofun, nofun⟩

end Sys2Proof.Machine
end

section
/-! SUPPORT. The law of a port's probes (R97): every operation of a port keeps it. -/

namespace Sys2Proof.Machine

open Sys2Proof

/-! ### The law in its parts -/

/-- No frame without a probe has an UNREACHABLE alias among the items on the bus or still to be sent (R97). -/
theorem Port.probeLaw_iff (p : Port) : p.probeLaw = true ↔
    ∀ f, p.inFlight = some f → ∀ it ∈ p.unsent, skipsChip p.chips f.frame.number it.chip = false := by
  cases hf : p.inFlight with
  | none => simp [Port.probeLaw, hf]
  | some f =>
    by_cases hprobe : f.frame.number.toNat % 16 = 0 <;>
      simp [Port.probeLaw, hf, hprobe, skipsChip, Port.chip, Config.probeInterval]

theorem Port.probeLaw_of_none {p : Port} (h : p.inFlight = none) : p.probeLaw = true :=
  p.probeLaw_iff.2 fun _ hf => absurd (hf.symm.trans h) nofun

theorem Port.unsent_of_item {p : Port} {f : Delivery} (hf : p.inFlight = some f) (h : p.txn.isItem = true) :
    p.unsent = f.items.drop (f.position - 1) := by
  simp [Port.unsent, hf, h]

theorem Port.unsent_of_not_item {p : Port} {f : Delivery} (hf : p.inFlight = some f) (h : p.txn.isItem = false) :
    p.unsent = f.items.drop f.position := by
  simp [Port.unsent, hf, h]

/-- A port that goes on with its frame keeps the law where it sends no items but those, to no alias lost since (R96, R97). -/
theorem Port.probeLaw_of_unsent {p q : Port} (h : p.probeLaw = true)
    (hflight : ∀ g, q.inFlight = some g → ∃ f, p.inFlight = some f ∧ g.frame = f.frame)
    (hunsent : ∀ it ∈ q.unsent, it ∈ p.unsent)
    (hchips : ∀ number, ∀ it ∈ q.unsent, skipsChip p.chips number it.chip = false → skipsChip q.chips number it.chip = false) :
    q.probeLaw = true := by
  refine q.probeLaw_iff.2 fun g hg it hit => ?_
  obtain ⟨f, hf, hframe⟩ := hflight g hg
  rw [hframe]
  exact hchips _ it hit (p.probeLaw_iff.1 h f hf it (hunsent it hit))

/-- Once its bus is free of items a port has the items not begun to send (R92), and keeps the law where none of these
is for an alias lost since (R96, R97). -/
theorem Port.probeLaw_of_notItem {p q : Port} (h : p.probeLaw = true) (hflight : q.inFlight = p.inFlight)
    (ht : q.txn.isItem = false)
    (hchips : ∀ number f, p.inFlight = some f → ∀ it ∈ f.items.drop f.position,
      skipsChip p.chips number it.chip = false → skipsChip q.chips number it.chip = false) : q.probeLaw = true := by
  have hunsent : ∀ f, p.inFlight = some f → q.unsent = f.items.drop f.position := fun f hf =>
    Port.unsent_of_not_item (hflight.trans hf) ht
  refine q.probeLaw_iff.2 fun f hf it hit => ?_
  rw [hflight] at hf
  rw [hunsent f hf] at hit
  refine hchips _ f hf it hit (p.probeLaw_iff.1 h f hf it ?_)
  rw [Port.unsent, hf]
  refine (List.drop_sublist_drop_left _ ?_).subset hit
  split_ifs
  · exact Nat.sub_le _ _
  · exact le_rfl

/-- The law looks at the frame in flight, the items to send and the chip records alone (R97). -/
theorem Port.probeLaw_of_same {p q : Port} (h : p.probeLaw = true) (hflight : q.inFlight = p.inFlight)
    (hitem : q.txn.isItem = p.txn.isItem) (hchips : q.chips = p.chips) : q.probeLaw = true := by
  have hunsent : q.unsent = p.unsent := by rw [Port.unsent, Port.unsent, hflight, hitem]
  exact Port.probeLaw_of_unsent h (fun g hg => ⟨g, hflight ▸ hg, rfl⟩) (fun it hit => hunsent ▸ hit)
    fun number it _ hs => hchips ▸ hs

/-- A frame starts without the UNREACHABLE aliases, unless it is a probe (R97). -/
theorem Port.start_probeLaw (b : BankCopy) (d : Side) (f : OutputFrame) (p : Port) : (p.start b d f).probeLaw = true := by
  rcases p.start_cases b d f with ⟨-, he⟩ | ⟨it, rest, hlist, he⟩ <;> rw [he]
  · exact Port.probeLaw_of_none rfl
  · refine (Port.probeLaw_iff _).2 fun g hg x hx => ?_
    obtain rfl := Option.some.inj hg
    rw [Port.unsent_of_item hg rfl] at hx
    exact (mem_transferList (hlist ▸ hx)).2

/-! ### Going on (R98, R99, R102) -/

theorem Port.takePending_probeLaw (b : BankCopy) (d : Side) {p : Port} (h : p.inFlight = none) :
    (p.takePending b d).probeLaw = true := by
  rw [Port.takePending]
  split
  · exact Port.start_probeLaw b d _ _
  · exact Port.probeLaw_of_none h

theorem Port.goOn_probeLaw (b : BankCopy) (d : Side) {p : Port} (h : p.inFlight = none) : (p.goOn b d).probeLaw = true := by
  rw [Port.goOn]
  split
  · rw [Port.perform]
    split
    · exact Port.takePending_probeLaw b d h
    · exact Port.probeLaw_of_none h
  · exact Port.takePending_probeLaw b d h

theorem Port.performWaiting_probeLaw (b : BankCopy) (d : Side) {p : Port} (h : p.probeLaw = true) (ht : p.txn = .quiet) :
    (p.performWaiting b d).probeLaw = true := by
  rw [Port.performWaiting]
  split
  · rw [Port.perform]
    split
    · exact Port.probeLaw_of_same h rfl rfl rfl
    · exact Port.probeLaw_of_same h rfl (by rw [ht]; rfl) rfl
  · exact h

theorem Port.settle_probeLaw (b : BankCopy) (d : Side) (test : Bool) {p : Port} (h : p.probeLaw = true) (ht : p.txn = .quiet)
    (hnone : p.state = .sending ∨ p.state = .halting → p.inFlight = none) : (p.settle b d test).probeLaw = true := by
  rw [Port.settle]
  split
  · exact Port.goOn_probeLaw b d (hnone (.inl ‹_›))
  · rename_i hs
    split_ifs
    · have hhalted : Port.probeLaw { p with state := .halted, pendingFrame := none } = true := h
      exact Port.performWaiting_probeLaw b d hhalted ht
    · exact Port.goOn_probeLaw b d (hnone (.inr hs))
  · exact Port.performWaiting_probeLaw b d h ht

/-- The next item is one of those still to be sent (R97, R99). -/
theorem Port.nextItem_probeLaw {b : BankCopy} {p q : Port} (h : p.probeLaw = true) (ht : p.txn.isItem = false)
    (hn : p.nextItem b = some q) : q.probeLaw = true := by
  obtain ⟨f, it, hf, -, rfl⟩ := Port.nextItem_some hn
  refine Port.probeLaw_of_unsent h (fun g hg => ⟨f, hf, by rw [← Option.some.inj hg]⟩) (fun x hx => ?_) fun _ _ _ => id
  rw [Port.unsent_of_item rfl rfl] at hx
  rwa [Port.unsent_of_not_item hf ht]

/-- An item's end keeps the law where the items not begun keep it (R97, R99). -/
theorem Port.itemEnded_probeLaw (b : BankCopy) (d : Side) (test : Bool) (it : TransferItem) {p : Port}
    (h : Port.probeLaw { p with txn := .quiet } = true) : (p.itemEnded b d test it).probeLaw = true := by
  rcases p.itemEnded_cases b d test it with ⟨he, -⟩ | ⟨-, hs, he⟩ | ⟨-, -, hn⟩
  · rw [he]
    exact Port.settle_probeLaw b d test (Port.probeLaw_of_none rfl) rfl fun _ => rfl
  · rw [he]
    exact Port.settle_probeLaw b d test h rfl fun hsend => absurd hsend (by simp [hs])
  · exact Port.nextItem_probeLaw h rfl hn

theorem Port.passEnded_probeLaw (b : BankCopy) (d : Side) (test : Bool) (result : Option Word) {p : Port}
    {address n timeout : Nat} (h : p.probeLaw = true) (ht : p.txn = .pass address n timeout) :
    (p.passEnded b d test result).probeLaw = true := by
  have hquiet : ∀ slot, Port.probeLaw { p with txn := .quiet, pass := slot } = true := fun slot =>
    Port.probeLaw_of_same h rfl (by rw [ht]; rfl) rfl
  rw [Port.passEnded]
  dsimp only
  split_ifs with hs hsome
  · split
    · rename_i hn
      exact Port.nextItem_probeLaw (hquiet _) rfl hn
    · exact Port.settle_probeLaw b d test (Port.probeLaw_of_none rfl) rfl fun _ => rfl
  · split
    · rename_i hn
      exact Port.nextItem_probeLaw (hquiet _) rfl hn
    · exact Port.settle_probeLaw b d test (hquiet _) rfl fun _ => by simpa using hsome
  · exact hquiet _

/-! ### Chip records (R96, R107) -/

/-- An alias is left out of no more frames where its record is not UNREACHABLE anew (R97). -/
theorem skipsChip_of_records {chips chips' : List ChipRecord} {number : Word} {chip : Nat}
    (hrecord : ∀ r', chips'[chip - 1]? = some r' → r'.state = .unreachable →
      ∃ r, chips[chip - 1]? = some r ∧ r.state = .unreachable)
    (h : skipsChip chips number chip = false) : skipsChip chips' number chip = false := by
  by_contra hskips
  simp only [skipsChip, Bool.not_eq_false, Bool.and_eq_true, Option.any_eq_true, decide_eq_true_eq] at hskips
  obtain ⟨⟨r', hr', hs'⟩, hnumber⟩ := hskips
  obtain ⟨r, hr, hs⟩ := hrecord r' hr' hs'
  simp [skipsChip, hr, hs, hnumber] at h

/-- Neither a change of another alias's record nor one that does not end UNREACHABLE leaves an alias out (R96, R97). -/
theorem skipsChip_changeChip {chips : List ChipRecord} {it : TransferItem} {g : ChipRecord → ChipRecord} {number : Word}
    {chip : Nat} (hchange : it.chip - 1 ≠ chip - 1 ∨ ∀ r, (g r).state ≠ .unreachable)
    (h : skipsChip chips number chip = false) : skipsChip (changeChip chips it g) number chip = false := by
  refine skipsChip_of_records (fun r' hr' hs' => ?_) h
  rw [changeChip, List.getElem?_modify, Option.map_eq_map, Option.map_eq_some_iff] at hr'
  obtain ⟨r, hr, rfl⟩ := hr'
  refine ⟨r, hr, ?_⟩
  split_ifs at hs' with hsame hmatch
  · exact absurd hs' (hchange.resolve_left (not_not.2 hsame) r)
  · exact hs'
  · exact hs'

/-- A commit makes no record UNREACHABLE (R107). -/
theorem skipsChip_remapChips (old new : BankCopy) (d : Side) {chips : List ChipRecord} {number : Word} {chip : Nat}
    (h : skipsChip chips number chip = false) : skipsChip (remapChips old new d chips) number chip = false := by
  refine skipsChip_of_records (fun r' hr' hs' => ?_) h
  rw [remapChips, List.getElem?_mapIdx, Option.map_eq_some_iff] at hr'
  obtain ⟨r, hr, rfl⟩ := hr'
  refine ⟨r, hr, ?_⟩
  rw [ChipRecord.remap] at hs'
  split at hs' <;> split_ifs at hs'
  · exact hs'
  · cases hs'
  · exact hs'
  · cases hs'

/-- The items of a list after the one on the bus go to other aliases (R97). -/
theorem chip_ne_of_mem_drop {items : List TransferItem} (h : itemsLaw items = true) {i : Nat} {it x : TransferItem}
    (hit : items[i]? = some it) (hx : x ∈ items.drop (i + 1)) : it.chip - 1 ≠ x.chip - 1 := by
  obtain ⟨hnodup, hrange, -⟩ := (itemsLaw_iff items).1 h
  obtain ⟨hi, rfl⟩ := List.getElem?_eq_some_iff.1 hit
  have hit' := hrange _ (List.getElem_mem hi)
  have hx' := hrange x (List.mem_of_mem_drop hx)
  have hne : items[i].chip ≠ x.chip := by
    have hdrop : (items.drop i).map TransferItem.chip = items[i].chip :: (items.drop (i + 1)).map TransferItem.chip := by
      rw [List.drop_eq_getElem_cons hi, List.map_cons]
    have hsub := hnodup.sublist ((List.drop_sublist i items).map TransferItem.chip)
    rw [hdrop, List.nodup_cons] at hsub
    exact fun he => hsub.1 (he ▸ List.mem_map_of_mem hx)
  omega

/-! ### The operations -/

/-- A skipped item may leave its alias UNREACHABLE, to which no item of its frame is still to go (R96, R97). -/
theorem Port.attemptFailed_probeLaw (b : BankCopy) (d : Side) (test : Bool) {p : Port} (hlaw : p.law = true)
    (h : p.probeLaw = true) : (p.attemptFailed b d test).port.probeLaw = true := by
  rw [Port.attemptFailed]
  split
  · exact h
  · rename_i it n timeout htxn
    split_ifs
    · exact Port.probeLaw_of_same h rfl (by rw [htxn]; rfl) rfl
    · obtain ⟨-, -, f, hf, hfits, hit⟩ := (Port.law_iff_of_item htxn).1 hlaw
      refine Port.itemEnded_probeLaw b d test it (Port.probeLaw_of_notItem h rfl rfl fun number g hg x hx =>
        skipsChip_changeChip (.inl ?_))
      obtain rfl : f = g := Option.some.inj (hf.symm.trans hg)
      exact chip_ne_of_mem_drop hfits.items hit (by rwa [Nat.sub_add_cancel hfits.begun])
  · rename_i address n timeout htxn
    split_ifs
    · exact Port.probeLaw_of_same h rfl (by rw [htxn]; rfl) rfl
    · exact Port.passEnded_probeLaw b d test none h htxn

theorem Port.itemAnswered_probeLaw (b : BankCopy) (d : Side) (test : Bool) (it : TransferItem) (a : SegmentAck) {p : Port}
    (h : p.probeLaw = true) : (p.itemAnswered b d test it a).port.probeLaw = true :=
  Port.itemEnded_probeLaw b d test it (Port.probeLaw_of_notItem h rfl rfl fun _ _ _ _ _ =>
    skipsChip_changeChip (.inr fun _ => nofun))

theorem Port.frameArrives_probeLaw (b : BankCopy) (f : OutputFrame) {p : Port} (h : p.probeLaw = true) :
    (p.frameArrives b f).port.probeLaw = true := by
  rw [Port.frameArrives]
  split
  · exact p.start_probeLaw b f.side f
  all_goals exact h

theorem Port.queuePass_probeLaw (b : BankCopy) (d : Side) (r : PassRequest) {p : Port} (h : p.probeLaw = true) :
    (p.queuePass b d r).probeLaw = true := by
  rw [Port.queuePass]
  split_ifs with hrest
  · exact Port.performWaiting_probeLaw b d (p := { p with pass := .waiting r }) h hrest.2
  · exact h

theorem Port.halt_probeLaw {p : Port} (h : p.probeLaw = true) : p.halt.probeLaw = true := by
  rw [Port.halt]
  split <;> exact h

/-- PORT STOP leaves the frame in flight or drops it (R105). -/
theorem Port.stop_probeLaw {p : Port} (h : p.probeLaw = true) : p.stop.probeLaw = true := by
  rcases p.stop_cases with ⟨-, he⟩ | ⟨-, he⟩ | ⟨-, -, he⟩ | ⟨-, -, he⟩ <;> rw [he]
  · exact h
  · exact h
  · exact Port.probeLaw_of_none rfl
  · exact h

theorem Port.resume_probeLaw (b : BankCopy) {p : Port} (h : p.probeLaw = true) : (p.resume b).probeLaw = true := by
  rw [Port.resume]
  split
  · split_ifs <;> exact h
  · split_ifs with ht
    · split
      · rename_i hn
        exact Port.nextItem_probeLaw (p := { p with state := .sending }) h (by simp [ht, Transaction.isItem]) hn
      · exact h
    · exact h
  · exact h

theorem Port.commit_probeLaw (old new : BankCopy) (d : Side) {p : Port} (h : p.probeLaw = true) :
    (p.commit old new d).probeLaw = true :=
  Port.probeLaw_of_unsent h (fun g hg => ⟨g, hg, rfl⟩) (fun _ hx => hx) fun _ _ _ => skipsChip_remapChips old new d

end Sys2Proof.Machine
end

section
/-! SUPPORT. What each command can do to the ports: operations of the ports alone (R92 to R108), said once for every command;
and the laws that follow. -/

namespace Sys2Proof.Machine

open Sys2Proof

/-! ### The operations of a port -/

/-- One operation of a port: an event on its bus (R95, R96, R102), a frame that reaches it (R98), a request (R101) or a result
that leaves its slot (R103), port control (R104 to R106), a commit (R107) or a reset (R108). -/
inductive Port.Operation (p : Port) : Port → Prop
  | attemptFailed (b : BankCopy) (d : Side) (test : Bool) : Operation p (p.attemptFailed b d test).port
  | itemAnswered (b : BankCopy) (d : Side) (test : Bool) (it : TransferItem) (a : SegmentAck) {n timeout : Nat}
      (h : p.txn = .item it n timeout) : Operation p (p.itemAnswered b d test it a).port
  | passEnded (b : BankCopy) (d : Side) (test : Bool) (result : Option Word) {address n timeout : Nat}
      (h : p.txn = .pass address n timeout) : Operation p (p.passEnded b d test result)
  | frameArrives (b : BankCopy) (f : OutputFrame) : Operation p (p.frameArrives b f).port
  | queuePass (b : BankCopy) (d : Side) (r : PassRequest) (h : p.pass = .empty) : Operation p (p.queuePass b d r)
  | admitted (r : PassRequest) (result : Option Word) (h : p.pass = .held r result) : Operation p { p with pass := .empty }
  | halt : Operation p p.halt
  | stop : Operation p p.stop
  | resume (b : BankCopy) : Operation p (p.resume b)
  | commit (old new : BankCopy) (d : Side) : Operation p (p.commit old new d)
  | reset (chips : List ChipRecord) : Operation p (Port.atReset chips)

theorem Port.Operation.law {p q : Port} (h : p.Operation q) (hp : p.law = true) : q.law = true := by
  cases h with
  | attemptFailed b d test => exact Port.attemptFailed_law b d test hp
  | itemAnswered b d test it a htxn => exact Port.itemAnswered_law b d test a hp htxn
  | passEnded b d test result htxn => exact Port.passEnded_law b d test result hp htxn
  | frameArrives b f => exact Port.frameArrives_law b f hp
  | queuePass b d r hempty => exact Port.queuePass_law b d r hp hempty
  | admitted r result hheld => exact Port.law_of_admitted hp hheld
  | halt => exact Port.halt_law hp
  | stop => exact Port.stop_law hp
  | resume b => exact Port.resume_law b hp
  | commit old new d => exact hp
  | reset chips => exact Port.atReset_law chips

theorem Port.Operation.probeLaw {p q : Port} (h : p.Operation q) (hlaw : p.law = true) (hp : p.probeLaw = true) :
    q.probeLaw = true := by
  cases h with
  | attemptFailed b d test => exact Port.attemptFailed_probeLaw b d test hlaw hp
  | itemAnswered b d test it a _ => exact Port.itemAnswered_probeLaw b d test it a hp
  | passEnded b d test result htxn => exact Port.passEnded_probeLaw b d test result hp htxn
  | frameArrives b f => exact Port.frameArrives_probeLaw b f hp
  | queuePass b d r hempty => exact Port.queuePass_probeLaw b d r hp
  | admitted r result hheld => exact hp
  | halt => exact Port.halt_probeLaw hp
  | stop => exact Port.stop_probeLaw hp
  | resume b => exact Port.resume_probeLaw b hp
  | commit old new d => exact Port.commit_probeLaw old new d hp
  | reset chips => exact Port.probeLaw_of_none rfl

/-- `q` follows from `p` by operations of the port. -/
def Port.Operates : Port → Port → Prop := Relation.ReflTransGen Port.Operation

theorem Port.Operates.law {p q : Port} (h : p.Operates q) (hp : p.law = true) : q.law = true := by
  induction h with
  | refl => exact hp
  | tail _ hop ih => exact hop.law ih

theorem Port.Operates.probeLaw {p q : Port} (h : p.Operates q) (hlaw : p.law = true) (hp : p.probeLaw = true) :
    q.probeLaw = true := by
  induction h with
  | refl => exact hp
  | tail hrun hop ih => exact hop.probeLaw (Port.Operates.law hrun hlaw) ih

/-! An answer on the bus ends the transaction it answers, fails the attempt, or comes too late to do anything (R95). -/

theorem Port.segmentAck_operates (b : BankCopy) (test : Bool) (a : SegmentAck) (p : Port) :
    p.Operates (p.segmentAck b test a).port := by
  rw [Port.segmentAck]
  split_ifs
  · exact .refl
  · split
    · split_ifs
      · exact .single (.itemAnswered b a.side test _ a ‹_›)
      · exact .single (.attemptFailed b a.side test)
    · exact .single (.attemptFailed b a.side test)

theorem Port.registerAck_operates (b : BankCopy) (test : Bool) (a : RegisterAck) (p : Port) :
    p.Operates (p.registerAck b test a).port := by
  rw [Port.registerAck]
  split_ifs
  · exact .refl
  · split
    · split_ifs
      · exact .single (.passEnded b a.side test _ ‹_›)
      · exact .single (.attemptFailed b a.side test)
    · exact .single (.attemptFailed b a.side test)

theorem Port.badAnswer_operates (b : BankCopy) (test : Bool) (a : BadAnswer) (p : Port) :
    p.Operates (p.badAnswer b test a).port := by
  rw [Port.badAnswer]
  split_ifs
  · exact .refl
  · exact .single (.attemptFailed b a.side test)

/-! ### The operations of both ports -/

/-- Both ports change by operations of theirs alone. -/
def State.OperatesPorts (s t : State) : Prop := ∀ d, (s.ports.get d).Operates (t.ports.get d)

theorem State.OperatesPorts.of_eq {s t : State} (h : t.ports = s.ports := by rfl) : s.OperatesPorts t := fun d => by
  rw [h]
  exact .refl

theorem State.OperatesPorts.trans {s t u : State} (h : s.OperatesPorts t) (h' : t.OperatesPorts u) : s.OperatesPorts u :=
  fun d => Relation.ReflTransGen.trans (h d) (h' d)

/-- One operation on each side's port. -/
theorem State.OperatesPorts.of_sided {s t : State} {p : Side → Port} (h : t.ports = Sided.of p)
    (hop : ∀ d, (s.ports.get d).Operation (p d)) : s.OperatesPorts t := fun d => by
  rw [h, Sided.get_of]
  exact .single (hop d)

/-- Operations on one side's port. -/
theorem State.OperatesPorts.of_set {s t : State} {d : Side} {p : Port} (h : t.ports = s.ports.set d p)
    (hop : (s.ports.get d).Operates p) : s.OperatesPorts t := fun e => by
  rw [h]
  by_cases he : e = d
  · subst he
    rw [Sided.get_set_same]
    exact hop
  · rw [Sided.get_set_of_ne _ he]
    exact .refl

/-- The laws of both ports go with their operations. -/
theorem State.OperatesPorts.laws {s t : State} (h : s.OperatesPorts t) (hs : s.portsLaw = true) :
    t.portsLaw = true ∧ (s.probesLaw = true → t.probesLaw = true) := by
  rw [State.portsLaw, Bool.and_eq_true] at hs ⊢
  obtain ⟨hleft, hright⟩ := hs
  refine ⟨⟨(h .left).law hleft, (h .right).law hright⟩, fun hprobes => ?_⟩
  rw [State.probesLaw, Bool.and_eq_true] at hprobes ⊢
  exact ⟨(h .left).probeLaw hleft hprobes.1, (h .right).probeLaw hright hprobes.2⟩

theorem State.OperatesPorts.refl (s : State) : s.OperatesPorts s := .of_eq

/-! ### The mode decision (R106, R111, R112) -/

/-- On leaving TEST both ports resume (R112). -/
theorem State.decideMode_ports (s : State) :
    s.decideMode.ports = s.ports ∨ s.decideMode.ports = Sided.of fun d => (s.ports.get d).resume s.bank.active := by
  rw [State.decideMode, State.enterMode]
  dsimp only
  split_ifs
  · exact .inr rfl
  · exact .inl rfl

theorem State.decideMode_operatesPorts (s : State) : s.OperatesPorts s.decideMode := by
  rcases s.decideMode_ports with h | h
  · exact .of_eq h
  · exact .of_sided h fun _ => .resume _

theorem State.withLink_operatesPorts (s : State) (e : LinkEffect) : s.OperatesPorts (s.withLink e) := by
  have hraised : s.OperatesPorts (({ s with link := e.link } : State).raise e.mask) := .of_eq
  rcases s.withLink_cases e with ⟨-, h⟩ | ⟨-, h⟩ <;> rw [h]
  · exact hraised
  · exact hraised.trans (State.decideMode_operatesPorts _)

theorem State.endTest_operatesPorts (s : State) (flagged : Bool) : s.OperatesPorts (s.endTest flagged) := by
  have hended : s.OperatesPorts { s.raise (Flag.testEnded.maskIf flagged) with sup := { s.sup with testActive := false } } :=
    .of_eq
  exact hended.trans (State.decideMode_operatesPorts _)

theorem State.startTest_operatesPorts (s : State) (p : TestProgram) : s.OperatesPorts (s.startTest p) := by
  have hstarted : s.OperatesPorts
      { s with sup := { s.sup with testActive := true, program := some p, current := p.enabled.head?, walk := 0, dwell := 0 } } :=
    .of_eq
  exact hstarted.trans (State.decideMode_operatesPorts _)

/-! ### Claims, resets and the downstream link -/

/-- A claim that enters empties the slot of a held result (R103, R161). -/
theorem State.Admits.operatesPorts {s t : State} (h : s.Admits t) : s.OperatesPorts t := fun d => by
  obtain ⟨added, status, report, ports, rfl, -, -, hports, -⟩ := h
  change (s.ports.get d).Operates (ports.get d)
  rcases hports d with hd | ⟨r, result, hheld, hd⟩ <;> rw [hd]
  · exact .refl
  · exact .single (.admitted r result hheld)

theorem resetUnder_operatesPorts (s : State) (bank : TableBank) (line : Bool) (waiting : List Instr) :
    s.OperatesPorts (resetUnder bank line waiting) :=
  .of_sided rfl fun _ => .reset _

theorem State.coldReset_operatesPorts (s : State) : s.OperatesPorts s.coldReset := .of_sided rfl fun _ => .reset _

theorem State.startReceived_operatesPorts (s : State) : s.OperatesPorts s.startReceived := by
  rw [State.startReceived]
  split_ifs <;> exact .of_eq

theorem State.frameFails_operatesPorts (s : State) (cause : FrameFault) : s.OperatesPorts (s.frameFails cause) := by
  cases cause with
  | startInFrame => exact .of_eq
  | overflow => exact .of_eq
  | failedCheck data =>
    rw [State.frameFails]
    split_ifs <;> exact .of_eq

theorem State.squelched_operatesPorts (s : State) : s.OperatesPorts s.squelched := by
  have hdiscarded : s.OperatesPorts (s.frameDiscarded false) := .of_eq
  rw [State.squelched]
  split_ifs
  · exact hdiscarded.trans (State.withLink_operatesPorts _ _)
  · exact s.withLink_operatesPorts _

theorem State.motionArrives_operatesPorts (s : State) (m : MotionPayload) : s.OperatesPorts (s.motionArrives m) := by
  have hlink := State.withLink_operatesPorts
    { s with rx := s.rx.accepted (frameBytes classMotion (motionBytes m)), motion := motionOf m }
  have hrecord : s.OperatesPorts
    { s with rx := s.rx.accepted (frameBytes classMotion (motionBytes m)), motion := motionOf m } := .of_eq
  rw [State.motionArrives, State.testSpeedCheck]
  split_ifs
  · exact hrecord.trans ((hlink _).trans (State.endTest_operatesPorts _ _))
  · exact hrecord.trans (hlink _)

theorem State.patternFrame_operatesPorts (s : State) (p : PatternPayload) : s.OperatesPorts (s.patternFrame p) := by
  rw [State.patternFrame]
  split
  · split_ifs <;> exact .of_eq
  · exact .of_eq

theorem State.lowreqTaken_operatesPorts (s : State) : s.OperatesPorts s.lowreqTaken := by
  rw [State.lowreqTaken]
  split
  · exact .refl s
  · rename_i h _
    have htaken : s.OperatesPorts
        { s.elapse (Config.lowreqTicks - h) with
          sup := { (s.elapse (Config.lowreqTicks - h)).sup with
            lowreqLevel := (s.elapse (Config.lowreqTicks - h)).sup.lowreqLine, lowreqHeld := none } } := .of_eq
    exact htaken.trans (State.decideMode_operatesPorts _)

theorem State.lowreqLineTo_operatesPorts (s : State) (active : Bool) : s.OperatesPorts (s.lowreqLineTo active) := by
  rw [State.lowreqLineTo]
  split_ifs <;> exact .of_eq

/-! ### Composition and the output frame event (R18, R98, R107) -/

/-- Composition complete hands each side's frame to its port (R98). -/
theorem State.completeComposition_operatesPorts (s : State) : s.OperatesPorts s.completeComposition := by
  cases hf : s.composer.inFlight with
  | none => rw [State.completeComposition_none hf]; exact .refl s
  | some x =>
    rw [State.completeComposition_some hf]
    exact .of_sided (p := fun d => (s.frameToPort x d).port) rfl fun _ => .frameArrives _ _

theorem State.commitAtEvent_operatesPorts (s : State) : s.OperatesPorts s.commitAtEvent := by
  rcases s.commitAtEvent_cases with ⟨-, h⟩ | ⟨id, off, -, -, h⟩ | ⟨-, -, h⟩ <;> rw [h]
  · exact .refl s
  · exact .of_eq
  · exact State.OperatesPorts.trans (.of_sided rfl fun d => .commit _ _ d) (State.withLink_operatesPorts _ _)

theorem State.outputFrameEvent_operatesPorts (s : State) (cause : FrameCause) : s.OperatesPorts (s.outputFrameEvent cause) := by
  have hbegun : s.completeComposition.OperatesPorts (s.completeComposition.beginEvent cause) := .of_eq
  have hdecided : (s.completeComposition.beginEvent cause).commitAtEvent.OperatesPorts
      { (s.atDecisions cause).frameDecisions with
        mgmt := { (s.atDecisions cause).frameDecisions.mgmt with
          reportClaim := (s.atDecisions cause).frameDecisions.mgmt.reportClaim
            || s.completeComposition.mgmt.reportRequest } } := .of_eq
  rw [s.outputFrameEvent_eq]
  exact s.completeComposition_operatesPorts.trans (hbegun.trans ((State.commitAtEvent_operatesPorts _).trans
    (hdecided.trans (State.statusAtEvent_admits _ _).operatesPorts)))

theorem State.syncEdgeArrives_operatesPorts (s : State) (edge : SyncEdge) : s.OperatesPorts (s.syncEdgeArrives edge) := by
  rw [State.syncEdgeArrives]
  split_ifs
  · exact s.outputFrameEvent_operatesPorts _
  · exact .of_eq
  · exact .refl s

theorem State.timerExpiry_operatesPorts (s : State) : s.OperatesPorts s.timerExpiry := by
  have hticks : s.OperatesPorts (s.elapse s.time.ticksToExpiry) := .of_eq
  exact hticks.trans (State.outputFrameEvent_operatesPorts _ _)

theorem State.strobeEnds_operatesPorts (s : State) : s.OperatesPorts s.strobeEnds := by
  rw [State.strobeEnds]
  split_ifs <;> exact .of_eq

/-! ### The lamp buses and the upstream queue -/

/-- An event on a bus is an operation of its port, and then claims enter (R103, R161). -/
theorem State.busEvent_operatesPorts (s : State) (d : Side) {act : BankCopy → Bool → Port → PortEffect}
    (hact : ∀ b test p, Port.Operates p (act b test p).port) : s.OperatesPorts (s.busEvent d act) := by
  rw [State.busEvent]
  exact (State.OperatesPorts.of_set rfl (hact _ _ _)).trans (State.admitClaims_admits _).operatesPorts

theorem State.headSent_operatesPorts (s : State) : s.OperatesPorts s.headSent := by
  rcases s.headSent_cases with ⟨-, h⟩ | ⟨f, rest, -, -, h⟩ | ⟨f, rest, -, -, h⟩ <;> rw [h]
  · exact .refl s
  · exact resetUnder_operatesPorts s _ _ _
  · have hfreed : s.OperatesPorts { s with mgmt := { s.mgmt with queue := rest } } := .of_eq
    exact hfreed.trans (State.admitClaims_admits _).operatesPorts

theorem State.warmResetDue_operatesPorts (s : State) : s.OperatesPorts s.warmResetDue := by
  rw [State.warmResetDue]
  split_ifs
  · exact resetUnder_operatesPorts s _ _ _
  · exact .refl s

/-! ### MANAGE commands (R101, R104 to R106, R159) -/

theorem State.manageRecord_operatesPorts {run : List Byte → State → CommandEffect}
    (hrun : ∀ params u, State.OperatesPorts u (run params u).state) (s : State) (code : Byte) (r : ManageRecord) :
    s.OperatesPorts (s.manageRecord code r run) := by
  refine State.manageRecord_keeps (P := s.OperatesPorts) (fun u tag hu => hu.trans ?_) (fun u f hu => hu.trans .of_eq)
    (fun u f hu => hu.trans .of_eq) (fun params u hu => hu.trans (hrun params u)) (.refl s) code r
  rw [State.openFrame]
  split <;> exact .of_eq

theorem withoutParams_operatesPorts {run : State → CommandEffect} (hrun : ∀ u : State, u.OperatesPorts (run u).state)
    (params : List Byte) (s : State) : s.OperatesPorts (withoutParams run params s).state := by
  rw [withoutParams]
  split
  · exact .refl s
  · exact hrun s

theorem tableWriteCommand_operatesPorts (params : List Byte) (s : State) :
    s.OperatesPorts (tableWriteCommand params s).state := by
  rw [tableWriteCommand]
  split
  · exact .refl s
  · split_ifs <;> exact .of_eq

theorem tableReadCommand_operatesPorts (params : List Byte) (s : State) : s.OperatesPorts (tableReadCommand params s).state := by
  rw [tableReadCommand]
  split
  · exact .refl s
  · split_ifs <;> exact .refl s

theorem statusNowCommand_operatesPorts : ∀ params (s : State), s.OperatesPorts (statusNowCommand params s).state :=
  withoutParams_operatesPorts fun u =>
    have hclaim : u.OperatesPorts { u with mgmt := { u.mgmt with statusClaim := true } } := .of_eq
    hclaim.trans (State.admitClaims_admits _).operatesPorts

theorem flagClearCommand_operatesPorts (params : List Byte) (s : State) : s.OperatesPorts (flagClearCommand params s).state := by
  rw [flagClearCommand]
  split <;> exact .of_eq

theorem frameAlignCommand_operatesPorts (params : List Byte) (s : State) :
    s.OperatesPorts (frameAlignCommand params s).state := by
  rw [frameAlignCommand]
  split
  · exact .refl s
  · split_ifs <;> exact .of_eq

theorem testEnterCommand_operatesPorts (params : List Byte) (s : State) : s.OperatesPorts (testEnterCommand params s).state := by
  rw [testEnterCommand]
  split
  · exact .refl s
  · split_ifs
    · exact .refl s
    · exact .refl s
    · exact .refl s
    · exact s.startTest_operatesPorts _

theorem testExitCommand_operatesPorts : ∀ params (s : State), s.OperatesPorts (testExitCommand params s).state := by
  refine withoutParams_operatesPorts fun u => ?_
  dsimp only
  split_ifs
  · exact u.endTest_operatesPorts _
  · exact .refl u

/-- Port control is an operation of the named port (R104 to R106). -/
theorem portCommand_operatesPorts {act : BankCopy → Port → Port} (hact : ∀ b p, Port.Operation p (act b p))
    (params : List Byte) (s : State) : s.OperatesPorts (portCommand act params s).state := by
  rw [portCommand]
  split
  · exact .refl s
  · split
    · exact .refl s
    · split_ifs
      · exact .of_set rfl (.single (hact _ _))
      · exact .refl s

/-- A request takes the slot of its side where it is EMPTY (R101). -/
theorem driverPassCommand_operatesPorts (params : List Byte) (s : State) :
    s.OperatesPorts (driverPassCommand params s).state := by
  rw [driverPassCommand]
  split
  · exact .refl s
  · split
    · exact .refl s
    · split_ifs with hrange hmap hslot
      · exact .refl s
      · exact .refl s
      · exact .refl s
      · exact .of_set rfl (.single (.queuePass _ _ _ (not_not.1 hslot)))

/-! ### Every command and every step -/

/-- Every command has a next state, whose ports come from operations of theirs alone. -/
theorem exec_operatesPorts (c : Instr) (s : State) : ∃ t, exec c s = .next t ∧ s.OperatesPorts t := by
  have hrunning : ∀ {f : State → State}, s.OperatesPorts (f s) → s.OperatesPorts (s.running f) :=
    fun hf => State.running_keeps (P := s.OperatesPorts) (.refl s) hf
  have hmanage : ∀ {run : List Byte → State → CommandEffect} (code : Byte) (r : ManageRecord),
      (∀ params u, State.OperatesPorts u (run params u).state) →
      s.OperatesPorts (s.running fun u => u.manageRecord code r run) :=
    fun code r hrun => hrunning (State.manageRecord_operatesPorts hrun s code r)
  cases c with
  | coldReset => exact ⟨_, rfl, s.coldReset_operatesPorts⟩
  | resetEnds =>
    refine ⟨_, rfl, ?_⟩
    split_ifs <;> exact .of_eq
  | lowreqEdge active => exact ⟨_, rfl, s.lowreqLineTo_operatesPorts active⟩
  | lowreqLevelChange => exact ⟨_, rfl, hrunning s.lowreqTaken_operatesPorts⟩
  | lineSquelch => exact ⟨_, rfl, hrunning s.squelched_operatesPorts⟩
  | linkFrameError cause => exact ⟨_, rfl, hrunning (s.frameFails_operatesPorts cause)⟩
  | startSymbol => exact ⟨_, rfl, hrunning s.startReceived_operatesPorts⟩
  | motionFrame m => exact ⟨_, rfl, hrunning (s.motionArrives_operatesPorts m)⟩
  | sceneFrame p =>
    refine ⟨_, rfl, hrunning ?_⟩
    split_ifs <;> exact .of_eq
  | patternFrame p => exact ⟨_, rfl, hrunning (s.patternFrame_operatesPorts p)⟩
  | lapseExpiry => exact ⟨_, rfl, hrunning (s.withLink_operatesPorts _)⟩
  | lossExpiry => exact ⟨_, rfl, hrunning (s.withLink_operatesPorts _)⟩
  | tableWrite r => exact ⟨_, rfl, hmanage _ r tableWriteCommand_operatesPorts⟩
  | tableRead r => exact ⟨_, rfl, hmanage _ r tableReadCommand_operatesPorts⟩
  | commit r => exact ⟨_, rfl, hmanage _ r (withoutParams_operatesPorts fun _ => .of_eq)⟩
  | discard r => exact ⟨_, rfl, hmanage _ r (withoutParams_operatesPorts fun _ => .of_eq)⟩
  | statusNow r => exact ⟨_, rfl, hmanage _ r statusNowCommand_operatesPorts⟩
  | flagClear r => exact ⟨_, rfl, hmanage _ r flagClearCommand_operatesPorts⟩
  | sceneClear r => exact ⟨_, rfl, hmanage _ r (withoutParams_operatesPorts fun _ => .of_eq)⟩
  | frameAlign r => exact ⟨_, rfl, hmanage _ r frameAlignCommand_operatesPorts⟩
  | testEnter r => exact ⟨_, rfl, hmanage _ r testEnterCommand_operatesPorts⟩
  | testExit r => exact ⟨_, rfl, hmanage _ r testExitCommand_operatesPorts⟩
  | portHalt r => exact ⟨_, rfl, hmanage _ r (portCommand_operatesPorts fun _ _ => .halt)⟩
  | portStop r => exact ⟨_, rfl, hmanage _ r (portCommand_operatesPorts fun _ _ => .stop)⟩
  | portResume r => exact ⟨_, rfl, hmanage _ r (portCommand_operatesPorts fun b _ => .resume b)⟩
  | driverPass r => exact ⟨_, rfl, hmanage _ r driverPassCommand_operatesPorts⟩
  | warmReset r => exact ⟨_, rfl, hmanage _ r (withoutParams_operatesPorts fun _ => .of_eq)⟩
  | unknownCommand code r => exact ⟨_, rfl, hmanage code r fun _ u => .refl u⟩
  | upstreamFrameSent => exact ⟨_, rfl, hrunning s.headSent_operatesPorts⟩
  | queueClaimEntry => exact ⟨_, rfl, hrunning s.admitClaims_admits.operatesPorts⟩
  | warmResetTakesEffect => exact ⟨_, rfl, hrunning s.warmResetDue_operatesPorts⟩
  | frameTimerExpiry => exact ⟨_, rfl, hrunning s.timerExpiry_operatesPorts⟩
  | fsyncEdge edge => exact ⟨_, rfl, hrunning (s.syncEdgeArrives_operatesPorts edge)⟩
  | strobeEnd => exact ⟨_, rfl, hrunning s.strobeEnds_operatesPorts⟩
  | msClockTick => exact ⟨_, rfl, hrunning .of_eq⟩
  | compositionComplete => exact ⟨_, rfl, hrunning s.completeComposition_operatesPorts⟩
  | segmentWriteAck a =>
    exact ⟨_, rfl, hrunning (s.busEvent_operatesPorts a.side fun b test => Port.segmentAck_operates b test a)⟩
  | registerAck a => exact ⟨_, rfl, hrunning (s.busEvent_operatesPorts a.side fun b test => Port.registerAck_operates b test a)⟩
  | nak a => exact ⟨_, rfl, hrunning (s.busEvent_operatesPorts a.side fun b test => Port.badAnswer_operates b test a)⟩
  | replyTimeout d => exact ⟨_, rfl, hrunning (s.busEvent_operatesPorts d fun b test _ => .single (.attemptFailed b d test))⟩

/-- Settles O55: a step changes the ports by operations of theirs alone, and each operation keeps both laws. -/
theorem stepKeepsPortsLaw : Obligations.StepKeepsPortsLaw := fun s _ h hst =>
  State.OperatesPorts.laws
    (step_keeps (P := s.OperatesPorts) (fun _ _ hu => hu.trans .of_eq) (fun _ _ hu => hu.trans .of_eq)
      (fun c u hu => (exec_operatesPorts c u).imp fun _ ⟨hx, ht⟩ => ⟨hx, hu.trans ht⟩) (.refl s) hst) h

end Sys2Proof.Machine
end

section
/-! SUPPORT. SEGMENT_WRITE_ACK, REGISTER_ACK, NAK and REPLY_TIMEOUT (R95, R96, R99, R100, R102, R103): what an event that ends
an item leaves of the state, said once for an answer and a skip. -/

namespace Sys2Proof.Machine

open Sys2Proof

/-! ### Events on the bus -/

theorem Port.nextItem_eq_some {b : BankCopy} {p : Port} {f : Delivery} {it : TransferItem} (hf : p.inFlight = some f)
    (hit : f.items[f.position]? = some it) :
    p.nextItem b = some { p with
      txn := .item it 1 (lampTimeout b), inFlight := some { f with position := f.position + 1 }
      remainder := p.remainder.tail } := by
  simp only [Port.nextItem, hf, hit, Port.beginItem]

/-- A flag that an event sets on a condition (R163). -/
theorem State.raise_maskIf_flag (s : State) (f : Flag) (c : Bool) : (s.raise (f.maskIf c)).flag f = (s.flag f || c) := by
  rw [State.raise_flag, Flag.maskIf_bit, decide_eq_true rfl, Bool.and_true]

/-- A SENDING port with nothing to go on with is IDLE (R99). -/
theorem Port.Proceeds.idle {b : BankCopy} {d : Side} {test room : Bool} {p q : Port} {added : List UpFrame}
    (h : Port.Proceeds b d test room p q added) (hs : p.state = .sending) (hpending : p.pendingFrame = none)
    (hwait : p.pass.isWaiting = false) : q = { p with state := .idle } := by
  have hnone : ∀ r, p.pass ≠ .waiting r := fun r hr => by rw [hr] at hwait; cases hwait
  obtain ⟨-, hsends, -⟩ := h.1 hnone
  exact (hsends (by simp [hs])).1 hpending

/-- An event on a bus that ends an item, said once: the port that follows begins the next item or goes on by the steps 2 to 4 of
R99, and a PASS_RESULT formed there enters the queue (R99, R102, R103, R105). -/
theorem State.busEvent_itemEnds {s : State} {d : Side} {act : BankCopy → Bool → Port → PortEffect} {p : Port}
    {it : TransferItem} {m : Word} (h : s.claimLaw = true) (hp : p.pass = (s.ports.get d).pass)
    (ha : act s.bank.active (decide (s.sup.mode = .test)) (s.ports.get d)
      = { port := p.itemEnded s.bank.active d (decide (s.sup.mode = .test)) it, mask := m }) :
    ∃ q added, s.busEvent d act
        = ({ s with
            ports := s.ports.set d q
            mgmt := { s.mgmt with queue := s.mgmt.queue ++ added } } : State).raise m
      ∧ q.chips = p.chips
      ∧ ((∀ r, p.pass ≠ .waiting r) → added = [])
      ∧ (∀ f next, it.last = false → p.state ≠ .stopped → p.inFlight = some f → f.items[f.position]? = some next →
          q = { p with
            txn := .item next 1 (lampTimeout s.bank.active)
            inFlight := some { f with position := f.position + 1 }, remainder := p.remainder.tail })
      ∧ (it.last = true →
          Port.Proceeds s.bank.active d (decide (s.sup.mode = .test)) s.mgmt.hasRoom
            { p with
              txn := .quiet, derate := p.derate && p.warningSeen, inFlight := none
              remainder := if p.state = .stopped then [] else p.remainder } q added)
      ∧ (it.last = false → p.state = .stopped →
          Port.Proceeds s.bank.active d (decide (s.sup.mode = .test)) s.mgmt.hasRoom { p with txn := .quiet } q added) := by
  rcases p.itemEnded_cases s.bank.active d (decide (s.sup.mode = .test)) it with ⟨he, hnext⟩ | ⟨hl, hs, he⟩ | ⟨hl, hs, hn⟩
  · rw [he] at ha
    obtain ⟨q, added, hbus, hadded, hproceeds, hchips⟩ := State.busEvent_settles h (by exact hp) ha
    refine ⟨q, added, hbus, hchips, hadded, fun f next hl _ hf hit => ?_, fun _ => hproceeds, fun hl hs => ?_⟩
    · have hsome := Port.nextItem_eq_some (b := s.bank.active) (p := { p with txn := .quiet }) hf hit
      rw [(hnext hl).2] at hsome
      cases hsome
    · exact absurd hs (hnext hl).1
  · rw [he] at ha
    obtain ⟨q, added, hbus, hadded, hproceeds, hchips⟩ := State.busEvent_settles h (by exact hp) ha
    refine ⟨q, added, hbus, hchips, hadded, fun _ _ _ hns => absurd hs hns, fun hl' => ?_, fun _ _ => hproceeds⟩
    rw [hl] at hl'
    cases hl'
  · have hslot : (p.itemEnded s.bank.active d (decide (s.sup.mode = .test)) it).pass = p.pass := by
      obtain ⟨f, next, -, -, hq⟩ := Port.nextItem_some hn
      rw [hq]
    have hkept := p.itemEnded_chips s.bank.active d (decide (s.sup.mode = .test)) it
    refine ⟨_, [], ?_, hkept, fun _ => rfl, fun f next _ _ hf hit => ?_, fun hl' => ?_,
      fun _ hs' => absurd hs' hs⟩
    · rw [State.busEvent, ha, List.append_nil]
      exact State.admitClaims_port h (by rw [hslot, hp])
    · have hsome := Port.nextItem_eq_some (b := s.bank.active) (p := { p with txn := .quiet }) hf hit
      rw [hn] at hsome
      exact Option.some.inj hsome
    · rw [hl] at hl'
      cases hl'

/-- Settles O42: an answer ends the item it answers, and the port goes on. -/
theorem segmentAckAnswersItem : Obligations.SegmentAckAnswersItem := by
  intro a s it n timeout hr hclaim hlate htxn haddress p
  obtain ⟨q, added, hbus, hchips, hadded, hnext, hlast, hstopped⟩ := State.busEvent_itemEnds (d := a.side)
    (act := fun b test p => p.segmentAck b test a) (m := (Flag.thermalStop a.side).maskIf a.thermalStop) hclaim
    (p := { p with
      chips := changeChip p.chips it (ChipRecord.answered a)
      derate := p.derate || a.thermalWarn, warningSeen := p.warningSeen || a.thermalWarn }) rfl
    (by simp only [Port.segmentAck, hlate, htxn, haddress]; rfl)
  have hexec : exec (.segmentWriteAck a) s = .next (s.busEvent a.side fun b test p => p.segmentAck b test a) := by
    rw [exec, execSegmentWriteAck, State.running_normal hr]
  rw [hexec, hbus]
  have hport : (s.ports.set a.side q).get a.side = q := Sided.get_set_same _ _ _
  refine ⟨_, rfl, ?_⟩
  simp only [State.raise_ports, State.raise_queue, hport, hchips, List.drop_left]
  refine ⟨rfl, fun d hd => Sided.get_set_of_ne _ hd _, ?_, fun f next => hnext f next, fun hl hs hpending hwait => ?_,
    ⟨trivial, hadded, hlast, hstopped⟩, hr, rfl, rfl, rfl, rfl, rfl, rfl, rfl, rfl, rfl, rfl, rfl, rfl⟩
  · rw [State.raise_maskIf_flag]
    rfl
  · rw [(hlast hl).idle hs hpending hwait]
    simp [hs]

/-- The queue after a result that enters it where a slot is free (R103, R161). -/
theorem append_ite_nil {α : Type} (l : List α) (x : α) (c : Prop) [Decidable c] :
    (l ++ if c then [x] else []) = if c then l ++ [x] else l := by
  split_ifs
  · rfl
  · exact List.append_nil l

/-- Settles O43: an answer ends the pass-through it answers, and the port goes on. -/
theorem registerAckGivesResult : Obligations.RegisterAckGivesResult := by
  intro a s address n timeout r hr hclaim hlate htxn haddress hpass p room slot
  obtain ⟨q, hbus, hchips, hrests, hproceeds, hnext⟩ := State.busEvent_passEnds (d := a.side)
    (act := fun b test p => p.registerAck b test a) (v := some a.value) (m := 0#16) hclaim hpass
    (by simp only [Port.registerAck, hlate, htxn, haddress]; rfl)
  have hexec : exec (.registerAck a) s = .next (s.busEvent a.side fun b test p => p.registerAck b test a) := by
    rw [exec, execRegisterAck, State.running_normal hr]
  rw [hexec, hbus, State.raise_zero]
  have hport : (s.ports.set a.side q).get a.side = q := Sided.get_set_same _ _ _
  refine ⟨_, rfl, ?_⟩
  rw [hport]
  refine ⟨hchips, fun d hd => Sided.get_set_of_ne _ hd _, fun hnone hs hpending => ?_, fun hs => hrests (.inr hs), hproceeds,
    fun f next hs hf hit => hnext _ hs (Port.nextItem_eq_some hf hit), ?_, hr, rfl, rfl, rfl, rfl, rfl, rfl, rfl, rfl, rfl, rfl,
    rfl, rfl⟩
  · refine (hproceeds (.inl hs) hnone).idle hs hpending ?_
    dsimp only
    split_ifs <;> rfl
  · rw [append_ite_nil]
    rfl

/-! ### Failed attempts (R95, R96, R102) -/

/-- An event that leaves its port as it was does nothing where no claim can enter (R161). -/
theorem State.busEvent_same {s : State} {d : Side} {act : BankCopy → Bool → Port → PortEffect} {p : Port}
    (h : s.claimLaw = true) (hp : p.pass = (s.ports.get d).pass)
    (ha : act s.bank.active (decide (s.sup.mode = .test)) (s.ports.get d) = { port := p, mask := 0#16 }) :
    s.busEvent d act = { s with ports := s.ports.set d p } := by
  rw [State.busEvent, ha]
  exact (State.admitClaims_port h (by rw [hp])).trans (State.raise_zero _)

/-- A failed attempt is NAK's, at an attempt not judged before, or REPLY_TIMEOUT's (R95). -/
theorem exec_failedAttempt {a : BadAnswer} {c : Instr} {s : State} (hr : s.inReset = false)
    (hc : (c = .nak a ∧ a.late = false) ∨ c = .replyTimeout a.side) :
    exec c s = .next (s.busEvent a.side fun b test p => p.attemptFailed b a.side test) := by
  rcases hc with ⟨rfl, hlate⟩ | rfl
  · rw [exec, execNak, State.running_normal hr]
    simp only [Port.badAnswer, hlate, Bool.false_eq_true, if_false]
  · rw [exec, execReplyTimeout, State.running_normal hr]

/-- A skip counts a failed frame, and at 4 from 3 leaves the record UNREACHABLE (R96). -/
theorem ChipRecord.skipped_eq (r : ChipRecord) :
    r.skipped = { r with failed := min 4 (r.failed + 1), state := if r.failed = 3 then .unreachable else r.state } := by
  simp [ChipRecord.skipped, Config.failedLimit]

/-- DRIVER_LOST goes with a count that stood at 3 (R96). -/
theorem losesChip_eq (chips : List ChipRecord) (it : TransferItem) :
    losesChip chips it = (chips[it.chip - 1]?).any fun r => decide (r.address = some it.address) && r.failed == 3 := by
  simp [losesChip, Config.failedLimit]

/-- Settles O44: NAK and REPLY_TIMEOUT fail the attempt on the bus, each with its own way to it. -/
theorem failedAttemptsRetryThenSkip : Obligations.FailedAttemptsRetryThenSkip := by
  refine ⟨fun a s hr hclaim hlate => ?_, fun a c s hr hclaim hc => ?_⟩
  · rw [exec, execNak, State.running_normal hr,
      State.busEvent_same (p := s.ports.get a.side) hclaim rfl (by simp only [Port.badAnswer, hlate, if_true]), Sided.set_get]
  rw [exec_failedAttempt hr hc]
  refine ⟨fun ht => ?_, fun it n timeout ht hn => ?_, fun address n timeout ht hn => ?_,
    fun address n timeout r ht hn hpass => ?_, fun it n timeout ht hn => ?_⟩
  · rw [State.busEvent_same (p := s.ports.get a.side) hclaim rfl (by simp only [Port.attemptFailed, ht]), Sided.set_get]
  · rw [State.busEvent_same hclaim ?_ (by simp only [Port.attemptFailed, ht]; exact if_pos hn)]
    · rfl
    · rfl
  · rw [State.busEvent_same hclaim ?_ (by simp only [Port.attemptFailed, ht]; exact if_pos hn)]
    · rfl
    · rfl
  · obtain ⟨q, hbus, -, hrests, hproceeds, hnext⟩ := State.busEvent_passEnds (d := a.side)
      (act := fun b test p => p.attemptFailed b a.side test) (v := none) (m := 0#16) hclaim hpass
      (by simp only [Port.attemptFailed, ht]; exact if_neg hn)
    rw [append_ite_nil, State.raise_zero] at hbus
    exact ⟨q, congrArg _ hbus, fun hs => hrests (.inr hs), hproceeds,
      fun f next hs hf hit => hnext _ hs (Port.nextItem_eq_some hf hit)⟩
  · obtain ⟨q, added, hbus, hchips, hadded, hnext, hlast, hstopped⟩ := State.busEvent_itemEnds (d := a.side)
      (act := fun b test p => p.attemptFailed b a.side test)
      (m := (Flag.driverLost a.side).maskIf (losesChip (s.ports.get a.side).chips it)) hclaim
      (p := { s.ports.get a.side with chips := changeChip (s.ports.get a.side).chips it ChipRecord.skipped }) rfl
      (by simp only [Port.attemptFailed, ht]; exact if_neg hn)
    rw [hbus]
    have hport : (s.ports.set a.side q).get a.side = q := Sided.get_set_same _ _ _
    refine ⟨_, rfl, ?_⟩
    simp only [State.raise_ports, State.raise_queue, hport, hchips, List.drop_left]
    refine ⟨?_, ?_, fun f next => hnext f next, ⟨trivial, hadded, hlast, hstopped⟩, fun d hd => Sided.get_set_of_ne _ hd _,
      rfl, rfl, rfl, rfl, rfl, rfl, rfl, rfl, rfl, rfl, rfl, rfl⟩
    · simp only [changeChip, ChipRecord.skipped_eq]
    · rw [State.raise_maskIf_flag, losesChip_eq]
      rfl

end Sys2Proof.Machine
end

section
/-! SUPPORT. A frame that starts on an IDLE port (R97 to R100), and the port commands PORT_HALT, PORT_STOP, PORT_RESUME and
DRIVER_PASS as executed records (R101, R102, R104 to R106, R159). -/

namespace Sys2Proof.Machine

open Sys2Proof

/-! ### The list of a frame (R97) -/

/-- The items of a list, marks aside: the driver map's entries of the side in alias order, without the aliases left out. -/
theorem transferList_entries (b : BankCopy) (d : Side) (chips : List ChipRecord) (number : Word) :
    (transferList b d chips number).map (fun it => (it.chip, it.address, it.first, it.count))
      = [1, 2, 3, 4].filterMap fun chip => (chipEntry b d chip).bind fun e =>
          if skipsChip chips number chip = true then none else some (chip, e.address, e.first, e.count) := by
  rw [transferList, markLast_map _ fun _ _ => rfl, List.map_filterMap]
  congr 1
  funext chip
  cases he : chipEntry b d chip with
  | none => simp only [itemFor, he, Option.map_none, Option.bind_none]
  | some e =>
    simp only [itemFor, he, Option.bind_some]
    split_ifs <;> rfl

/-- An alias is left out of a frame without a probe while its record is UNREACHABLE (R97). -/
theorem skipsChip_iff (p : Port) (number : Word) (chip : Nat) : skipsChip p.chips number chip = true
    ↔ (p.chip chip).any (fun r => decide (r.state = .unreachable)) = true ∧ number.toNat % 16 ≠ 0 := by
  simp only [skipsChip, Port.chip, Config.probeInterval, Bool.and_eq_true, bne_iff_ne]

/-- Settles O36: a frame starts its side's list, whose first item is on the bus where there is one. -/
theorem frameStartsOnIdlePort : Obligations.FrameStartsOnIdlePort := by
  intro b f p hs taken q
  have htaken : (transferList b f.side p.chips f.number).map (fun it => (it.chip, it.address, it.first, it.count)) = taken := by
    simp only [transferList_entries, skipsChip_iff, taken]
  have hq : q = p.start b f.side f := by simp only [q, Port.frameArrives, hs]
  have hmask : (p.frameArrives b f).mask = 0#16 := by simp only [Port.frameArrives, hs]
  refine ⟨hmask, p.frameArrives_chips b f, p.frameArrives_pass b f, ?_⟩
  rcases p.start_cases b f.side f with ⟨hlist, he⟩ | ⟨it, rest, hlist, he⟩
  · rw [hlist, List.map_nil] at htaken
    refine ⟨fun _ => ?_, fun hne => absurd htaken.symm hne⟩
    rw [hq, he, ← hs]
  · have hlast := transferList_last b f.side p.chips f.number
    rw [hlist] at htaken hlast
    refine ⟨fun hnil => ?_, fun _ => ?_⟩
    · rw [hnil] at htaken
      cases htaken
    · rw [hq, he]
      exact ⟨rfl, rfl, rfl, it :: rest, rfl, htaken, hlast, it, rfl, rfl⟩

/-! ### Port control (R104 to R106, R159) -/

/-- The three outcomes of a port control command: another side code, another mode, and its act on the named port. -/
theorem State.manageRecord_portCommand {s : State} {r : ManageRecord} {code : Byte} (h : s.executes = true)
    (hparams : r.params = [code]) (command : Byte) (act : BankCopy → Port → Port) :
    (1 < code.toNat → s.manageRecord command r (portCommand act) = s.answered s command r .badRange [])
    ∧ (code.toNat ≤ 1 → s.sup.mode ≠ .test →
        s.manageRecord command r (portCommand act) = s.answered s command r .notInTest [])
    ∧ ∀ d, code.toNat = sideCode d → s.sup.mode = .test →
        s.manageRecord command r (portCommand act)
          = s.answered { s with ports := s.ports.set d (act s.bank.active (s.ports.get d)) } command r .ok [] := by
  refine ⟨fun hcode => State.answered_of_answer h ?_, fun hcode hmode => State.answered_of_answer h ?_,
    fun d hcode hmode => State.answered_of_effect h ?_⟩
  · simp only [portCommand, hparams, byteArg, (sideOf_eq_none_iff code).2 hcode]
  · have hside : sideOf code ≠ none := fun hnone => by
      have := (sideOf_eq_none_iff code).1 hnone
      omega
    obtain ⟨d, hd⟩ := Option.ne_none_iff_exists'.1 hside
    simp only [portCommand, hparams, byteArg, hd, State.opened_sup, hmode, if_false]
  · simp only [portCommand, hparams, byteArg, (sideOf_eq_some_iff code d).2 hcode, State.opened_sup, hmode, if_true]
    rfl

/-- What PORT RESUME does, row by row (R106). -/
theorem Port.resume_rows (b : BankCopy) (p : Port) :
    (p.state = .idle ∨ p.state = .sending ∨ p.state = .halting → p.resume b = p)
    ∧ (p.state = .halted ∨ p.state = .stopped → p.txn ≠ .quiet → p.resume b = { p with state := .sending })
    ∧ (p.state = .halted → p.txn = .quiet → p.resume b = { p with state := .idle })
    ∧ (p.state = .stopped → p.txn = .quiet → p.inFlight = none → p.resume b = { p with state := .idle })
    ∧ ∀ f it, p.state = .stopped → p.txn = .quiet → p.inFlight = some f → f.items[f.position]? = some it →
        p.resume b = { p with
          state := .sending, txn := .item it 1 (lampTimeout b)
          inFlight := some { f with position := f.position + 1 }, remainder := p.remainder.tail } := by
  refine ⟨fun hs => ?_, fun hs ht => ?_, fun hs ht => ?_, fun hs ht hf => ?_, fun f it hs ht hf hit => ?_⟩
  · rcases hs with hs | hs | hs <;> simp only [Port.resume, hs]
  · rcases hs with hs | hs <;> simp only [Port.resume, hs, if_neg ht]
  · simp only [Port.resume, hs, if_pos ht]
  · simp only [Port.resume, hs, if_pos ht, Port.nextItem, hf]
  · simp only [Port.resume, hs, if_pos ht, Port.nextItem_eq_some (p := { p with state := .sending }) hf hit]

/-- Settles O25: the three commands share their checks, and each acts on its port by the case of the port's state. -/
theorem portControlInTest : Obligations.PortControlInTest := by
  intro r s code h hparams
  have hr := State.inReset_of_executes h
  have hhalt : exec (.portHalt r) s = .next (s.manageRecord 0x0B#8 r portHaltCommand) := by
    rw [exec, execPortHalt, State.running_normal hr]
  have hstop : exec (.portStop r) s = .next (s.manageRecord 0x0C#8 r portStopCommand) := by
    rw [exec, execPortStop, State.running_normal hr]
  have hresume : exec (.portResume r) s = .next (s.manageRecord 0x0D#8 r portResumeCommand) := by
    rw [exec, execPortResume, State.running_normal hr]
  obtain ⟨hhaltRange, hhaltMode, hhaltActs⟩ := State.manageRecord_portCommand h hparams 0x0B#8 fun _ p => p.halt
  obtain ⟨hstopRange, hstopMode, hstopActs⟩ := State.manageRecord_portCommand h hparams 0x0C#8 fun _ p => p.stop
  obtain ⟨hresumeRange, hresumeMode, hresumeActs⟩ := State.manageRecord_portCommand h hparams 0x0D#8 fun b p => p.resume b
  rw [hhalt, hstop, hresume]
  refine ⟨fun hcode => ⟨congrArg _ (hhaltRange hcode), congrArg _ (hstopRange hcode), congrArg _ (hresumeRange hcode)⟩,
    fun hcode hmode => ⟨congrArg _ (hhaltMode hcode hmode), congrArg _ (hstopMode hcode hmode),
      congrArg _ (hresumeMode hcode hmode)⟩, ?_⟩
  intro d hcode hmode p halted stopped
  have hhalted : p.halt = halted := by
    cases hs : p.state <;> simp only [Port.halt, halted, hs]
  have hstopped : p.stop = stopped := by
    cases hs : p.state <;> cases ht : p.txn <;> simp only [Port.stop, stopped, hs, ht, Port.unbegun] <;> rfl
  rw [← hhalted, ← hstopped]
  exact ⟨congrArg _ (hhaltActs d hcode hmode), congrArg _ (hstopActs d hcode hmode), _,
    congrArg _ (hresumeActs d hcode hmode), p.resume_rows s.bank.active⟩

/-! ### Pass-through requests (R101, R102, R159) -/

/-- An IDLE, HALTED or STOPPED port with nothing on the bus performs a request at once, at the address of its alias (R101). -/
theorem Port.queuePass_atOnce {b : BankCopy} {d : Side} {r : PassRequest} {p : Port} {e : MapEntry}
    (hs : p.state = .idle ∨ p.state = .halted ∨ p.state = .stopped) (ht : p.txn = .quiet)
    (he : chipEntry b d r.chip = some e) :
    p.queuePass b d r = { p with
      pass := .inProgress r, txn := .pass e.address 1 (passTimeout b)
      state := if p.state = .idle then .sending else p.state } := by
  simp only [Port.queuePass, hs, ht, and_self, if_true, Port.performWaiting, Port.perform, he]

/-- On a SENDING or HALTING port, or with a transaction on the bus, it waits (R101). -/
theorem Port.queuePass_waits (b : BankCopy) (d : Side) (r : PassRequest) {p : Port}
    (h : p.state = .sending ∨ p.state = .halting ∨ p.txn ≠ .quiet) : p.queuePass b d r = { p with pass := .waiting r } := by
  rw [Port.queuePass, if_neg]
  rintro ⟨hs, ht⟩
  rcases h with h | h | h
  · simp [h] at hs
  · simp [h] at hs
  · exact h ht

/-- A request with all its fields in range: an alias that the map leaves unused, a slot that is taken, or the request QUEUED
on the port of its side (R101). -/
theorem driverPassCommand_inRange {u : State} {d : Side} {sb ab db : Byte} (rb v1 v2 : Byte) (hside : sb.toNat = sideCode d)
    (hchip : 1 ≤ ab.toNat ∧ ab.toNat ≤ 4) (hdir : db.toNat ≤ 1) :
    let params := [sb, ab, db, rb, v1, v2]
    (chipEntry u.bank.active d ab.toNat = none → driverPassCommand params u = u.answer .unknownAlias)
    ∧ ∀ e, chipEntry u.bank.active d ab.toNat = some e →
        ((u.ports.get d).pass ≠ .empty → driverPassCommand params u = u.answer .busy)
        ∧ ((u.ports.get d).pass = .empty → driverPassCommand params u
            = { state := { u with ports := u.ports.set d ((u.ports.get d).queuePass u.bank.active d
                  { chip := ab.toNat, write := decide (db.toNat = 1), register := rb.toNat, value := v1 ++ v2 }) }
                code := .queued, data := [] }) := by
  have hd : sideOf sb = some d := (sideOf_eq_some_iff sb d).2 hside
  have hrange : (!within 1 4 ab.toNat || decide (1 < db.toNat)) = false := by
    simp only [within, Bool.or_eq_false_iff, Bool.not_eq_false', Bool.and_eq_true, decide_eq_true_eq, decide_eq_false_iff_not,
      not_lt]
    exact ⟨hchip, hdir⟩
  refine ⟨fun he => ?_, fun e he => ⟨fun hbusy => ?_, fun hempty => ?_⟩⟩
  · simp [driverPassCommand, passArgs, hd, hrange, he]
  · simp [driverPassCommand, passArgs, hd, hrange, he, hbusy]
  · simp [driverPassCommand, passArgs, hd, hrange, he, hempty, beq_eq_decide, wordOf]

/-- A request with a field out of its range (R101, R159). -/
theorem driverPassCommand_outOfRange {u : State} {sb ab db rb v1 v2 : Byte}
    (h : 1 < sb.toNat ∨ ab.toNat = 0 ∨ 4 < ab.toNat ∨ 1 < db.toNat) :
    driverPassCommand [sb, ab, db, rb, v1, v2] u = u.answer .badRange := by
  cases hd : sideOf sb with
  | none => simp only [driverPassCommand, passArgs, hd]
  | some d =>
    have hside : ¬ 1 < sb.toNat := fun hlt => by
      rw [(sideOf_eq_none_iff sb).2 hlt] at hd
      cases hd
    have hrange : (!within 1 4 ab.toNat || decide (1 < db.toNat)) = true := by
      simp only [within, Bool.or_eq_true, Bool.not_eq_true', Bool.and_eq_false_iff, decide_eq_false_iff_not, decide_eq_true_eq]
      omega
    simp only [driverPassCommand, passArgs, hd, hrange, if_true]

/-- Settles O26, by the checks in their order; a request that passes them begins or waits by the port's state. -/
theorem driverPassTakesSlot : Obligations.DriverPassTakesSlot := by
  intro r s sb ab db rb v1 v2 h hparams
  have hexec : exec (.driverPass r) s = .next (s.manageRecord 0x0E#8 r driverPassCommand) := by
    rw [exec, execDriverPass, State.running_normal (State.inReset_of_executes h)]
  rw [hexec]
  refine ⟨fun hbad => congrArg _ (State.answered_of_answer h ?_), ?_⟩
  · rw [hparams, driverPassCommand_outOfRange hbad]
  intro d hside hchip hchip' hdir p q
  obtain ⟨hunknown, hknown⟩ := driverPassCommand_inRange (u := s.opened r) rb v1 v2 hside ⟨hchip, hchip'⟩ hdir
  rw [← hparams] at hunknown hknown
  have hqueued : ∀ e p', chipEntry s.bank.active d ab.toNat = some e → p.pass = .empty → p.queuePass s.bank.active d q = p' →
      s.manageRecord 0x0E#8 r driverPassCommand = s.answered { s with ports := s.ports.set d p' } 0x0E#8 r .queued [] := by
    rintro e _ he hempty rfl
    exact State.answered_of_effect h ((hknown e he).2 hempty)
  exact ⟨fun he => congrArg _ (State.answered_of_answer h (hunknown he)),
    fun e he hbusy => congrArg _ (State.answered_of_answer h ((hknown e he).1 hbusy)),
    fun e he hempty hs ht => congrArg _ (hqueued e _ he hempty (Port.queuePass_atOnce hs ht he)),
    fun e he hempty hs => congrArg _ (hqueued e _ he hempty (Port.queuePass_waits _ _ _ hs))⟩

end Sys2Proof.Machine
end

section
/-! SUPPORT. The mode and what decides it (R110, R111, R117): the law as the table of R111, and every effect of the running
part either leaves what the table reads or decides the mode again. -/

namespace Sys2Proof.Machine

open Sys2Proof

/-! ### The law as the table of R111 -/

/-- The part runs, its mode is the one that the table of R111 gives, and a test is active only while the link is UP. -/
structure State.ModeDecided (s : State) : Prop where
  running : s.inReset = false
  mode : s.sup.mode = modeFor s.link.state s.sup.testActive s.sup.lowreqLevel
  test : s.sup.testActive = true → s.link.state = .up

/-- The law of R111 outside RESET is the table of R111. -/
theorem State.modeLaw_iff_modeDecided {s : State} (hr : s.inReset = false) : s.modeLaw = true ↔ s.ModeDecided := by
  have htable : ∀ (m : BeamMode) (l : LinkState) (test level : Bool),
      m.allowedIn l = true ∧ m.allowedAt level = true ∧ test = decide (m = .test)
        ↔ m = modeFor l test level ∧ (test = true → l = .up) := by
    intro m l test level
    cases m <;> cases l <;> revert test level <;> decide
  have hno : s.inReset = true → s.link.state = .down := fun h => absurd (hr.symm.trans h) (by decide)
  constructor
  · intro h
    obtain ⟨hin, hat, htest, -⟩ := s.modeLaw_iff.1 h
    obtain ⟨hmode, hup⟩ := (htable _ _ _ _).1 ⟨hin, hat, htest⟩
    exact ⟨hr, hmode, hup⟩
  · intro h
    obtain ⟨hin, hat, htest⟩ := (htable _ _ _ _).2 ⟨h.mode, h.test⟩
    exact s.modeLaw_iff.2 ⟨hin, hat, htest, hno⟩

/-- An update keeps the table where it leaves what the table reads; a part left as it is needs no argument. -/
theorem State.ModeDecided.of_eq {s t : State} (h : s.ModeDecided) (hreset : t.inReset = s.inReset := by rfl)
    (hlink : t.link.state = s.link.state := by rfl) (hmode : t.sup.mode = s.sup.mode := by rfl)
    (htest : t.sup.testActive = s.sup.testActive := by rfl) (hlevel : t.sup.lowreqLevel = s.sup.lowreqLevel := by rfl) :
    t.ModeDecided :=
  ⟨hreset.trans h.running, by rw [hmode, hlink, htest, hlevel, h.mode], by rw [htest, hlink]; exact h.test⟩

/-! ### Deciding the mode (R111, R117) -/

/-- Leaving TEST clears the test; any other entry leaves it as it is (R112). -/
theorem State.enterMode_testActive (s : State) (mode : BeamMode) :
    (s.enterMode mode).sup.testActive = (s.sup.testActive && !decide (s.sup.mode = .test ∧ mode ≠ .test)) := by
  by_cases h : s.sup.mode = .test ∧ mode ≠ .test
  · simp [State.enterMode, Supervisor.clearTest, h]
  · by_cases hmode : s.sup.mode = .test
    · have : mode = .test := by simpa [hmode] using h
      simp [State.enterMode, this, hmode]
    · simp [State.enterMode, hmode]

/-- A test goes on through a decision only while the link is UP (R117). -/
theorem State.decideMode_testActive (s : State) :
    s.decideMode.sup.testActive = (s.sup.testActive && decide (s.link.state = .up)) := by
  rw [State.decideMode, State.enterMode_testActive]
  cases htest : s.sup.testActive
  · simp [htest]
  · by_cases hup : s.link.state = .up <;> simp [htest, hup, modeFor]

theorem State.decideMode_lowreqLevel (s : State) : s.decideMode.sup.lowreqLevel = s.sup.lowreqLevel := by
  rw [State.decideMode, State.enterMode]
  dsimp only
  split_ifs <;> rfl

/-- A decision gives the mode of the table, whatever stood before. -/
theorem State.decideMode_modeDecided {s : State} (hr : s.inReset = false) : s.decideMode.ModeDecided := by
  refine ⟨hr, ?_, fun h => ?_⟩
  · rw [s.decideMode_mode, s.decideMode_testActive, s.decideMode_lowreqLevel]
    show _ = modeFor s.link.state _ _
    cases s.link.state <;> cases s.sup.testActive <;> rfl
  · rw [s.decideMode_testActive, Bool.and_eq_true, decide_eq_true_eq] at h
    exact h.2

theorem State.ModeDecided.withLink {s : State} (h : s.ModeDecided) (e : LinkEffect) : (s.withLink e).ModeDecided := by
  rcases s.withLink_cases e with ⟨hsame, hw⟩ | ⟨-, hw⟩ <;> rw [hw]
  · exact h.of_eq (hlink := hsame)
  · exact State.decideMode_modeDecided h.running

theorem State.endTest_modeDecided {s : State} (hr : s.inReset = false) (flagged : Bool) : (s.endTest flagged).ModeDecided :=
  State.decideMode_modeDecided hr

theorem State.startTest_modeDecided {s : State} (hr : s.inReset = false) (p : TestProgram) : (s.startTest p).ModeDecided :=
  State.decideMode_modeDecided hr

/-! ### Resets (R110, R130) -/

/-- A reset puts the link in DOWN and takes the mode from the line. -/
theorem resetUnder_modeDecided (bank : TableBank) (line : Bool) (waiting : List Instr) :
    (resetUnder bank line waiting).ModeDecided :=
  ⟨rfl, rfl, fun h => absurd h Bool.false_ne_true⟩

theorem State.coldReset_modeLaw (s : State) : s.coldReset.modeLaw = true := rfl

/-- Under RESET the link is DOWN, so that its end finds no test active. -/
theorem State.endReset_modeLaw {s : State} (h : s.modeLaw = true) (hr : s.inReset = true) : s.endReset.modeLaw = true := by
  obtain ⟨-, -, -, hreset⟩ := s.modeLaw_iff.1 h
  have hdown := hreset hr
  have hidle : s.sup.testActive = false := by
    rw [Bool.eq_false_iff]
    intro htest
    exact absurd (hdown.symm.trans (State.modeLaw_up h htest)) (by decide)
  refine (State.modeLaw_iff_modeDecided rfl).2 ⟨rfl, ?_, fun htest => ?_⟩
  · show modeFor .down false s.sup.lowreqLine = modeFor s.link.state s.sup.testActive s.sup.lowreqLine
    rw [hdown, hidle]
  · exact absurd (hidle.symm.trans htest) (by decide)

/-! ### The LOWREQ line and the downstream link -/

/-- A level on the line is not yet a level taken (R113). -/
theorem State.lowreqLineTo_modeLaw {s : State} (h : s.modeLaw = true) (active : Bool) :
    (s.lowreqLineTo active).modeLaw = true := by
  rw [State.lowreqLineTo]
  split_ifs <;> exact h

namespace State.ModeDecided

variable {s : State} (h : s.ModeDecided)
include h

theorem lowreqTaken : s.lowreqTaken.ModeDecided := by
  rw [State.lowreqTaken]
  split
  · exact h
  · exact State.decideMode_modeDecided h.running

theorem frameDiscarded (restarted : Bool) : (s.frameDiscarded restarted).ModeDecided := h.of_eq

theorem startReceived : s.startReceived.ModeDecided := by
  rw [State.startReceived]
  split_ifs <;> exact h.of_eq

theorem frameFails (cause : FrameFault) : (s.frameFails cause).ModeDecided := by
  cases cause with
  | startInFrame => exact h.frameDiscarded _
  | overflow => exact h.frameDiscarded _
  | failedCheck data =>
    rw [State.frameFails]
    split_ifs
    · exact h.frameDiscarded _
    · exact h

theorem squelched : s.squelched.ModeDecided := by
  rw [State.squelched]
  split_ifs
  · exact (h.frameDiscarded _).withLink _
  · exact h.withLink _

theorem testSpeedCheck : s.testSpeedCheck.ModeDecided := by
  rw [State.testSpeedCheck]
  split_ifs
  · exact State.endTest_modeDecided h.running _
  · exact h

theorem motionArrives (m : MotionPayload) : (s.motionArrives m).ModeDecided :=
  have hrecord : State.ModeDecided
    { s with rx := s.rx.accepted (frameBytes classMotion (motionBytes m)), motion := motionOf m } := h.of_eq
  (hrecord.withLink _).testSpeedCheck

theorem sceneFrame (p : ScenePayload) :
    (if p.framed then s.sceneArrives p else s.frameDiscarded false).ModeDecided := by
  split_ifs <;> exact h.of_eq

theorem patternFrame (p : PatternPayload) : (s.patternFrame p).ModeDecided := by
  rw [State.patternFrame]
  split
  · split_ifs <;> exact h.of_eq
  · exact h.of_eq

/-! ### Composition and the output frame event -/

theorem admits {t : State} (ht : s.Admits t) : t.ModeDecided := by
  obtain ⟨added, status, report, ports, rfl, -⟩ := ht
  exact h.of_eq

theorem completeComposition : s.completeComposition.ModeDecided := by
  obtain ⟨hreset, -, hlink, -, -, -, -, hsup, -⟩ := s.completeComposition_frame
  exact h.of_eq hreset (by rw [hlink]) (by rw [hsup]) (by rw [hsup]) (by rw [hsup])

/-- An applied commit may move the link, and then the mode is decided again (R135). -/
theorem commitAtEvent : s.commitAtEvent.ModeDecided := by
  rcases s.commitAtEvent_cases with ⟨-, hs⟩ | ⟨id, off, -, -, hs⟩ | ⟨-, -, hs⟩ <;> rw [hs]
  · exact h
  · exact h.of_eq
  · exact State.ModeDecided.withLink h.of_eq _

theorem atDecisions (cause : FrameCause) : (s.atDecisions cause).ModeDecided :=
  have hbegin : (s.completeComposition.beginEvent cause).ModeDecided := h.completeComposition.of_eq
  hbegin.commitAtEvent.of_eq

end State.ModeDecided

/-- The program's advance leaves the test active and the LOWREQ level (R121). -/
theorem Supervisor.advance_test (b : BankCopy) (u : Supervisor) :
    (u.advance b).testActive = u.testActive ∧ (u.advance b).lowreqLevel = u.lowreqLevel := by
  rw [Supervisor.advance]
  split
  · split_ifs <;> exact ⟨rfl, rfl⟩
  · exact ⟨rfl, rfl⟩

namespace State.ModeDecided

variable {s : State} (h : s.ModeDecided)
include h

theorem frameDecisions : s.frameDecisions.ModeDecided := by
  obtain ⟨htest, hlevel⟩ := Supervisor.advance_test s.bank.active s.sup
  refine h.of_eq rfl rfl s.frameDecisions_mode ?_ ?_ <;>
  · rw [State.frameDecisions]
    dsimp only
    split_ifs
    · assumption
    · rfl

theorem outputFrameEvent (cause : FrameCause) : (s.outputFrameEvent cause).ModeDecided := by
  rw [s.outputFrameEvent_eq]
  exact State.ModeDecided.admits (h.atDecisions cause).frameDecisions.of_eq (State.statusAtEvent_admits _ _)

theorem timerExpiry : s.timerExpiry.ModeDecided :=
  State.ModeDecided.outputFrameEvent (s := s.elapse s.time.ticksToExpiry) h.of_eq _

theorem syncEdgeArrives (edge : SyncEdge) : (s.syncEdgeArrives edge).ModeDecided := by
  rw [State.syncEdgeArrives]
  split_ifs
  · exact h.outputFrameEvent _
  · exact h.of_eq
  · exact h

theorem strobeEnds : s.strobeEnds.ModeDecided := by
  rw [State.strobeEnds]
  split_ifs
  · exact h.of_eq
  · exact h

/-! ### The lamp buses and the upstream queue -/

theorem busEvent (d : Side) (act : BankCopy → Bool → Port → PortEffect) : (s.busEvent d act).ModeDecided :=
  State.ModeDecided.admits h.of_eq (State.admitClaims_admits _)

theorem headSent : s.headSent.ModeDecided := by
  rcases s.headSent_cases with ⟨-, hs⟩ | ⟨_, _, -, -, hs⟩ | ⟨_, _, -, -, hs⟩ <;> rw [hs]
  · exact h
  · exact resetUnder_modeDecided _ _ _
  · exact State.ModeDecided.admits h.of_eq (State.admitClaims_admits _)

theorem warmResetDue : s.warmResetDue.ModeDecided := by
  rw [State.warmResetDue]
  split_ifs
  · exact resetUnder_modeDecided _ _ _
  · exact h

/-! ### MANAGE commands (R159): TEST ENTER and TEST EXIT decide the mode again (R116, R117) -/

theorem manageRecord {run : List Byte → State → CommandEffect}
    (hrun : ∀ params u, u.ModeDecided → (run params u).state.ModeDecided) (code : Byte) (r : ManageRecord) :
    (s.manageRecord code r run).ModeDecided := by
  refine State.manageRecord_keeps (fun u tag hu => ?_) (fun _ _ hu => hu.of_eq) (fun _ _ hu => hu.of_eq) hrun h code r
  rw [State.openFrame]
  split
  · exact hu
  · exact hu.of_eq

end State.ModeDecided

/-- A command without parameters keeps the table where its effect does. -/
theorem withoutParams_modeDecided {run : State → CommandEffect} (hrun : ∀ u, u.ModeDecided → (run u).state.ModeDecided)
    (params : List Byte) (s : State) (h : s.ModeDecided) : (withoutParams run params s).state.ModeDecided := by
  rw [withoutParams]
  split
  · exact h
  · exact hrun s h

section Commands

variable (params : List Byte) (s : State) (h : s.ModeDecided)
include h

theorem tableWriteCommand_modeDecided : (tableWriteCommand params s).state.ModeDecided := by
  rw [tableWriteCommand]
  split
  · exact h
  · split_ifs <;> exact h.of_eq

theorem tableReadCommand_modeDecided : (tableReadCommand params s).state.ModeDecided := by
  rw [tableReadCommand]
  split
  · exact h
  · split_ifs <;> exact h

theorem statusNowCommand_modeDecided : (statusNowCommand params s).state.ModeDecided :=
  withoutParams_modeDecided (fun _ hu => State.ModeDecided.admits hu.of_eq (State.admitClaims_admits _)) params s h

theorem flagClearCommand_modeDecided : (flagClearCommand params s).state.ModeDecided := by
  rw [flagClearCommand]
  split <;> exact h.of_eq

theorem frameAlignCommand_modeDecided : (frameAlignCommand params s).state.ModeDecided := by
  rw [frameAlignCommand]
  split
  · exact h
  · split_ifs <;> exact h.of_eq

theorem testEnterCommand_modeDecided : (testEnterCommand params s).state.ModeDecided := by
  rw [testEnterCommand]
  split
  · exact h
  · split_ifs
    · exact h
    · exact h
    · exact h
    · exact State.startTest_modeDecided h.running _

theorem testExitCommand_modeDecided : (testExitCommand params s).state.ModeDecided := by
  refine withoutParams_modeDecided (fun u hu => ?_) params s h
  dsimp only
  split_ifs
  · exact State.endTest_modeDecided hu.running _
  · exact hu

theorem portCommand_modeDecided (act : BankCopy → Port → Port) : (portCommand act params s).state.ModeDecided := by
  rw [portCommand]
  split
  · exact h
  · split
    · exact h
    · split_ifs <;> exact h.of_eq

theorem driverPassCommand_modeDecided : (driverPassCommand params s).state.ModeDecided := by
  rw [driverPassCommand]
  split
  · exact h
  · split
    · exact h
    · split_ifs <;> exact h.of_eq

end Commands

/-! ### Every command and every step -/

/-- An effect that keeps the table keeps the law, also under RESET, where nothing happens (00_scope.md section 8). -/
theorem State.running_modeLaw {s : State} (h : s.modeLaw = true) {f : State → State}
    (hf : s.ModeDecided → (f s).ModeDecided) : (s.running f).modeLaw = true := by
  cases hr : s.inReset
  · have ht := hf ((State.modeLaw_iff_modeDecided hr).1 h)
    rw [State.running_normal hr]
    exact (State.modeLaw_iff_modeDecided ht.running).2 ht
  · rwa [State.running_inReset hr]

/-- Every command has a next state and keeps the law. -/
theorem exec_modeLaw (c : Instr) (s : State) (h : s.modeLaw = true) : ∃ t, exec c s = .next t ∧ t.modeLaw = true := by
  have hrunning : ∀ {f : State → State}, (s.ModeDecided → (f s).ModeDecided) → (s.running f).modeLaw = true :=
    State.running_modeLaw h
  have hmanage : ∀ {run : List Byte → State → CommandEffect} (code : Byte) (r : ManageRecord),
      (∀ params u, u.ModeDecided → (run params u).state.ModeDecided) →
      (s.running fun u => u.manageRecord code r run).modeLaw = true :=
    fun code r hrun => hrunning fun hs => hs.manageRecord hrun code r
  cases c with
  | coldReset => exact ⟨_, rfl, s.coldReset_modeLaw⟩
  | resetEnds =>
    refine ⟨_, rfl, ?_⟩
    split_ifs with hr
    · exact State.endReset_modeLaw h hr
    · exact h
  | lowreqEdge active => exact ⟨_, rfl, State.lowreqLineTo_modeLaw h active⟩
  | lowreqLevelChange => exact ⟨_, rfl, hrunning fun hs => hs.lowreqTaken⟩
  | lineSquelch => exact ⟨_, rfl, hrunning fun hs => hs.squelched⟩
  | linkFrameError cause => exact ⟨_, rfl, hrunning fun hs => hs.frameFails cause⟩
  | startSymbol => exact ⟨_, rfl, hrunning fun hs => hs.startReceived⟩
  | motionFrame m => exact ⟨_, rfl, hrunning fun hs => hs.motionArrives m⟩
  | sceneFrame p => exact ⟨_, rfl, hrunning fun hs => hs.sceneFrame p⟩
  | patternFrame p => exact ⟨_, rfl, hrunning fun hs => hs.patternFrame p⟩
  | lapseExpiry => exact ⟨_, rfl, hrunning fun hs => hs.withLink _⟩
  | lossExpiry => exact ⟨_, rfl, hrunning fun hs => hs.withLink _⟩
  | tableWrite r => exact ⟨_, rfl, hmanage _ r tableWriteCommand_modeDecided⟩
  | tableRead r => exact ⟨_, rfl, hmanage _ r tableReadCommand_modeDecided⟩
  | commit r => exact ⟨_, rfl, hmanage _ r (withoutParams_modeDecided fun _ hu => hu.of_eq)⟩
  | discard r => exact ⟨_, rfl, hmanage _ r (withoutParams_modeDecided fun _ hu => hu.of_eq)⟩
  | statusNow r => exact ⟨_, rfl, hmanage _ r statusNowCommand_modeDecided⟩
  | flagClear r => exact ⟨_, rfl, hmanage _ r flagClearCommand_modeDecided⟩
  | sceneClear r => exact ⟨_, rfl, hmanage _ r (withoutParams_modeDecided fun _ hu => hu.of_eq)⟩
  | frameAlign r => exact ⟨_, rfl, hmanage _ r frameAlignCommand_modeDecided⟩
  | testEnter r => exact ⟨_, rfl, hmanage _ r testEnterCommand_modeDecided⟩
  | testExit r => exact ⟨_, rfl, hmanage _ r testExitCommand_modeDecided⟩
  | portHalt r => exact ⟨_, rfl, hmanage _ r fun params u hu => portCommand_modeDecided params u hu _⟩
  | portStop r => exact ⟨_, rfl, hmanage _ r fun params u hu => portCommand_modeDecided params u hu _⟩
  | portResume r => exact ⟨_, rfl, hmanage _ r fun params u hu => portCommand_modeDecided params u hu _⟩
  | driverPass r => exact ⟨_, rfl, hmanage _ r driverPassCommand_modeDecided⟩
  | warmReset r => exact ⟨_, rfl, hmanage _ r (withoutParams_modeDecided fun _ hu => hu.of_eq)⟩
  | unknownCommand code r => exact ⟨_, rfl, hmanage code r fun _ _ => id⟩
  | upstreamFrameSent => exact ⟨_, rfl, hrunning fun hs => hs.headSent⟩
  | queueClaimEntry => exact ⟨_, rfl, hrunning fun hs => hs.admits s.admitClaims_admits⟩
  | warmResetTakesEffect => exact ⟨_, rfl, hrunning fun hs => hs.warmResetDue⟩
  | frameTimerExpiry => exact ⟨_, rfl, hrunning fun hs => hs.timerExpiry⟩
  | fsyncEdge edge => exact ⟨_, rfl, hrunning fun hs => hs.syncEdgeArrives edge⟩
  | strobeEnd => exact ⟨_, rfl, hrunning fun hs => hs.strobeEnds⟩
  | msClockTick => exact ⟨_, rfl, hrunning fun hs => hs.of_eq⟩
  | compositionComplete => exact ⟨_, rfl, hrunning fun hs => hs.completeComposition⟩
  | segmentWriteAck a => exact ⟨_, rfl, hrunning fun hs => hs.busEvent _ _⟩
  | registerAck a => exact ⟨_, rfl, hrunning fun hs => hs.busEvent _ _⟩
  | nak a => exact ⟨_, rfl, hrunning fun hs => hs.busEvent _ _⟩
  | replyTimeout d => exact ⟨_, rfl, hrunning fun hs => hs.busEvent _ _⟩

/-- Settles O49: every command keeps the law, and neither the queue of commands nor a tick touches it. -/
theorem stepKeepsModeLaw : Obligations.StepKeepsModeLaw := fun _ _ h hst =>
  step_keeps (P := fun s => s.modeLaw = true) (fun _ _ hs => hs) (fun _ _ hs => hs) exec_modeLaw h hst

end Sys2Proof.Machine
end

section
/-! SUPPORT. What the decisions of the Supervisor give in a part that runs (R38, R111, R112, R117): entering a mode, the start
and the end of a test, an arrival, and a LOWREQ level. -/

namespace Sys2Proof.Machine

open Sys2Proof

/-! ### Entering a mode (R112) -/

/-- A mode entered otherwise than from TEST changes the mode, and the bend where the new mode holds it at 0. -/
theorem State.enterMode_staying {s : State} {mode : BeamMode} (h : s.sup.mode = .test → mode = .test) :
    s.enterMode mode
      = { s with
          sup := { s.sup with mode := mode }
          bend := if mode ≠ s.sup.mode ∧ mode.unbent = true then s.bend.straight else s.bend } := by
  have hstays : (decide (mode ≠ s.sup.mode) && decide (s.sup.mode = .test)) = false := by
    rw [Bool.and_eq_false_imp, decide_eq_true_eq, decide_eq_false_iff_not]
    exact fun hne htest => hne ((h htest).trans htest.symm)
  simp only [State.enterMode, hstays, Bool.and_eq_true, decide_eq_true_eq]
  rfl

/-- A mode entered from TEST clears the test program state and resumes both ports too. -/
theorem State.enterMode_leavingTest {s : State} {mode : BeamMode} (h : s.sup.mode = .test) (hmode : mode ≠ .test) :
    s.enterMode mode
      = { s with
          sup := { s.sup.clearTest with mode := mode }
          bend := if mode.unbent = true then s.bend.straight else s.bend
          ports := Sided.of fun d => (s.ports.get d).resume s.bank.active } := by
  simp [State.enterMode, h, hmode]

/-- NORMAL is decided only while UP (R111). -/
theorem modeFor_normal {l : LinkState} {testActive lowreq : Bool} (h : modeFor l testActive lowreq = .normal) : l = .up := by
  revert h
  cases l <;> cases testActive <;> cases lowreq <;> decide

/-! ### Tests (R116, R117) -/

namespace State.ModeDecided

variable {s : State} (h : s.ModeDecided)
include h

/-- A test is active exactly in TEST (R110). -/
theorem testActive_eq : s.sup.testActive = decide (s.sup.mode = .test) := by
  obtain ⟨-, -, htest, -⟩ := s.modeLaw_iff.1 ((State.modeLaw_iff_modeDecided h.running).2 h)
  exact htest

/-- TEST stands only while the link is UP (R111). -/
theorem up_of_test (hm : s.sup.mode = .test) : s.link.state = .up := modeFor_test (h.mode.symm.trans hm)

/-- While the link is UP the mode is TEST or NORMAL (R111). -/
theorem normal_of_up (hl : s.link.state = .up) (hm : s.sup.mode ≠ .test) : s.sup.mode = .normal := by
  rw [h.mode, hl, h.testActive_eq, decide_eq_false hm]
  rfl

/-- A test that ends while the link is UP gives NORMAL, which leaves the bend (R106, R117). -/
theorem endTest_eq (hm : s.sup.mode = .test) (flagged : Bool) :
    s.endTest flagged
      = { s.raise (Flag.testEnded.maskIf flagged) with
          sup := { s.sup with mode := .normal, testActive := false, program := none, current := none, walk := 0, dwell := 0 }
          ports := Sided.of fun d => (s.ports.get d).resume s.bank.active } := by
  let u : State := { s.raise (Flag.testEnded.maskIf flagged) with sup := { s.sup with testActive := false } }
  have hnormal : modeFor u.link.state u.sup.testActive u.sup.lowreqLevel = .normal := by
    rw [show u.link.state = .up from h.up_of_test hm]
    rfl
  calc s.endTest flagged = u.decideMode := rfl
    _ = u.enterMode .normal := by rw [State.decideMode_keep fun htest => absurd htest Bool.false_ne_true, hnormal]
    _ = _ := State.enterMode_leavingTest hm (by decide)

/-- A test that starts in NORMAL gives TEST and clears the bend (R112, R116, R121). -/
theorem startTest_eq (hm : s.sup.mode = .normal) (p : TestProgram) :
    s.startTest p
      = { s with
          sup := { s.sup with mode := .test, testActive := true, program := some p, current := p.enabled.head?, walk := 0,
                              dwell := 0 }
          bend := s.bend.straight } := by
  let u : State :=
    { s with sup := { s.sup with testActive := true, program := some p, current := p.enabled.head?, walk := 0, dwell := 0 } }
  have hup : u.link.state = .up := modeFor_normal (h.mode.symm.trans hm)
  have hbend : BeamMode.test ≠ u.sup.mode ∧ BeamMode.test.unbent = true := ⟨fun htest => (nomatch htest.trans hm), rfl⟩
  calc s.startTest p = u.decideMode := rfl
    _ = u.enterMode .test := by rw [State.decideMode_keep fun _ => hup, hup]; rfl
    _ = _ := by rw [State.enterMode_staying fun _ => rfl, if_pos hbend]

/-! ### Arrivals and LOWREQ levels (R111, R132) -/

/-- A change at the Link Monitor that sets no flag and moves the link only from DOWN to SETTLING or to UP gives NORMAL where
it leaves the link UP without a test, and keeps the mode otherwise; flags and ports stay. -/
theorem withLink_arrival {e : LinkEffect} (hmask : e.mask = 0#16)
    (he : (s.link.state = .down ∧ e.link.state = .settling) ∨ e.link.state = s.link.state ∨ e.link.state = .up) :
    (s.withLink e).sup
        = { s.sup with mode := if e.link.state = .up ∧ s.sup.mode ≠ .test then .normal else s.sup.mode }
      ∧ (s.withLink e).ports = s.ports ∧ (s.withLink e).mgmt = s.mgmt := by
  have hlaw := (State.modeLaw_iff_modeDecided h.running).2 h
  rcases s.withLink_cases e with ⟨hsame, hw⟩ | ⟨hne, hw⟩ <;> rw [hw, hmask, State.raise_zero]
  · refine ⟨?_, rfl, rfl⟩
    split_ifs with hup
    · rw [← h.normal_of_up (hsame.symm.trans hup.1) hup.2]
    · rfl
  · have hm : s.sup.mode ≠ .test := by
      intro htest
      have hup := h.up_of_test htest
      rcases he with ⟨hdown, -⟩ | hkept | hnew
      · cases hdown.symm.trans hup
      · exact hne hkept
      · exact hne (hnew.trans hup.symm)
    have hidle : s.sup.testActive = false := h.testActive_eq.trans (decide_eq_false hm)
    have htable : modeFor e.link.state s.sup.testActive s.sup.lowreqLevel
        = if e.link.state = .up ∧ s.sup.mode ≠ .test then .normal else s.sup.mode := by
      rcases he with ⟨hdown, hsettling⟩ | hkept | hnew
      · rw [hsettling, State.modeLaw_down hlaw hdown, if_neg fun hup => nomatch hup.1]
      · exact absurd hkept hne
      · rw [hnew, hidle, if_pos ⟨rfl, hm⟩]
        rfl
    have hkeep : ({ s with link := e.link } : State).decideMode
        = ({ s with link := e.link } : State).enterMode (modeFor e.link.state s.sup.testActive s.sup.lowreqLevel) :=
      State.decideMode_keep fun htest => absurd (hidle.symm.trans htest) (by decide)
    rw [hkeep, htable, State.enterMode_staying (s := { s with link := e.link }) fun htest => absurd htest hm]
    exact ⟨rfl, rfl, rfl⟩

end State.ModeDecided

/-- The MOTION arrival is a change at the Link Monitor, and then the check of R118. -/
theorem State.motionArrives_eq (s : State) (m : MotionPayload) :
    s.motionArrives m
      = (State.withLink { s with rx := s.rx.accepted (frameBytes classMotion (motionBytes m)), motion := motionOf m }
          { link := s.link.arrival s.bank.active s.time.msClock, mask := 0#16 }).testSpeedCheck := rfl

/-- Settles O10: the arrival at the Link Monitor decides the mode, and then the check of R118 ends a test or does nothing. -/
theorem motionArrivalDecidesMode : Obligations.MotionArrivalDecidesMode := by
  intro m s hr hlaw fast
  let u : State := { s with rx := s.rx.accepted (frameBytes classMotion (motionBytes m)), motion := motionOf m }
  let e : LinkEffect := { link := s.link.arrival s.bank.active s.time.msClock, mask := 0#16 }
  have hs := (State.modeLaw_iff_modeDecided hr).1 hlaw
  have hu : u.ModeDecided := hs.of_eq
  obtain ⟨hsup, hports, hmgmt⟩ := hu.withLink_arrival (e := e) rfl (LinkMonitor.arrival_state _ _ _)
  obtain ⟨hlink, -, -, hmotion, -, -, -, -, -, hbank, -⟩ := u.withLink_frame e
  have hdecided := hu.withLink e
  have hexec : exec (.motionFrame m) s = .next (u.withLink e).testSpeedCheck := by
    rw [exec, execMotionFrame, State.running_normal hr, State.motionArrives_eq]
  have hmode : (u.withLink e).sup.mode = .test ↔ s.sup.mode = .test := by
    rw [hsup]
    show (if e.link.state = .up ∧ s.sup.mode ≠ .test then BeamMode.normal else s.sup.mode) = .test ↔ _
    split_ifs with hup
    · exact ⟨fun hn => (nomatch hn), fun htest => absurd htest hup.2⟩
    · exact Iff.rfl
  have hfast : tooFast (u.withLink e).bank.active (u.withLink e).motion = fast := by
    rw [hbank, hmotion]
    rfl
  refine ⟨_, hexec, ?_⟩
  by_cases hends : s.sup.mode = .test ∧ fast = true
  · obtain ⟨htest, hfast'⟩ := hends
    have hcheck : (u.withLink e).testSpeedCheck = (u.withLink e).endTest true :=
      if_pos ⟨hmode.2 htest, hfast.trans hfast'⟩
    have hup : (u.withLink e).link.state = .up := hdecided.up_of_test (hmode.2 htest)
    rw [hcheck, hdecided.endTest_eq (hmode.2 htest)]
    refine ⟨?_, fun hno => absurd ⟨htest, hfast'⟩ hno, fun _ => ⟨?_, fun d => ?_, ?_⟩⟩
    · rw [if_neg fun hslow => absurd (hfast'.symm.trans hslow.2) (by decide)]
      exact (if_pos hup).symm
    · show (u.withLink e).mgmt.raise (reportEnable (u.withLink e).bank.active) _ = _
      rw [hmgmt, hbank]
      rfl
    · show (Sided.of fun d => ((u.withLink e).ports.get d).resume (u.withLink e).bank.active).get d = _
      rw [Sided.get_of, hports, hbank]
    · rw [hsup]
  · have hcheck : (u.withLink e).testSpeedCheck = u.withLink e :=
      if_neg fun hcond => hends ⟨hmode.1 hcond.1, hfast.symm.trans hcond.2⟩
    rw [hcheck]
    refine ⟨?_, fun _ => ⟨hmgmt, hports, by rw [hsup]⟩, fun hyes => absurd hyes hends⟩
    rw [hsup, hlink]
    show (if e.link.state = .up ∧ s.sup.mode ≠ .test then BeamMode.normal else s.sup.mode) = _
    by_cases htest : s.sup.mode = .test
    · have hslow : fast = false := Bool.eq_false_iff.2 fun hf => hends ⟨htest, hf⟩
      rw [if_neg fun hcond => hcond.2 htest, if_pos ⟨htest, hslow⟩, htest]
    · rw [if_neg fun hcond : s.sup.mode = .test ∧ fast = false => htest hcond.1]
      exact if_congr (and_iff_left htest) rfl rfl

end Sys2Proof.Machine
end

section
/-! SUPPORT. LOWREQ_EDGE and LOWREQ_LEVEL_CHANGE (R113): the qualification of a level, and the mode decided at its end. -/

namespace Sys2Proof.Machine

open Sys2Proof

/-- The state of a part that takes the level of the line after `n` more ticks of its qualification, before the mode is decided
again (R113). -/
def State.levelTaken (s : State) (n : Nat) : State :=
  { s.elapse n with sup := { s.sup with lowreqLevel := s.sup.lowreqLine, lowreqHeld := none } }

/-- The level of the line is taken: the ticks still missing pass, and the mode is that of the table under the new level. -/
theorem State.ModeDecided.lowreqTaken_eq {s : State} (h : s.ModeDecided) {held : Nat} (hheld : s.sup.lowreqHeld = some held) :
    s.lowreqTaken
      = (s.levelTaken (2000 - held)).enterMode (modeFor s.link.state s.sup.testActive s.sup.lowreqLine) := by
  have htaken : s.lowreqTaken = (s.levelTaken (2000 - held)).decideMode := by
    rw [State.lowreqTaken, hheld]
    rfl
  have hkeep : (s.levelTaken (2000 - held)).sup.testActive = true → (s.levelTaken (2000 - held)).link.state = .up := h.test
  rw [htaken, State.decideMode_keep hkeep]
  rfl

/-- The level decides the mode in DOWN and SETTLING alone (R111). -/
theorem State.ModeDecided.modeFor_level {s : State} (h : s.ModeDecided) (level : Bool) :
    modeFor s.link.state s.sup.testActive level
      = match s.link.state with
        | .up => s.sup.mode
        | .lapsed => .hold
        | _ => if level = true then .fallback else .dark := by
  cases hl : s.link.state with
  | up => exact (h.mode.trans (by rw [hl]; rfl)).symm
  | lapsed => rfl
  | down => rfl
  | settling => rfl

/-- Where the level changes the mode, the new mode holds the bend at 0 (R38). -/
theorem State.ModeDecided.unbent_of_level {s : State} (h : s.ModeDecided) {level : Bool}
    (hne : modeFor s.link.state s.sup.testActive level ≠ s.sup.mode) :
    (modeFor s.link.state s.sup.testActive level).unbent = true := by
  rw [h.mode] at hne
  cases hl : s.link.state with
  | up => rw [hl] at hne; exact absurd rfl hne
  | lapsed => rw [hl] at hne; exact absurd rfl hne
  | down => cases level <;> rfl
  | settling => cases level <;> rfl

/-- Settles O5: an edge by the line's rule, and a taken level by the mode it decides. -/
theorem lowreqLevelDecidesFallback : Obligations.LowreqLevelDecidesFallback := by
  refine ⟨fun active s hr => ?_, fun s hr hnone => ?_, fun s held hr hlaw hheld => ?_⟩
  · simp only [exec, execLowreqEdge, State.lowreqLineTo, hr, Bool.false_or, decide_eq_true_eq]
  · rw [exec, execLowreqLevelChange, State.running_normal hr, State.lowreqTaken, hnone]
  · have hs := (State.modeLaw_iff_modeDecided hr).1 hlaw
    let mode := modeFor s.link.state s.sup.testActive s.sup.lowreqLine
    have htest : s.sup.mode = .test → mode = .test := by
      intro htest
      have hup := hs.up_of_test htest
      rw [hs.mode, hup] at htest
      exact (congrArg (fun l => modeFor l s.sup.testActive s.sup.lowreqLine) hup).trans htest
    have hbend : (if mode ≠ s.sup.mode ∧ mode.unbent = true then s.bend.straight else s.bend)
        = if mode = s.sup.mode then s.bend else s.bend.straight := by
      by_cases hsame : mode = s.sup.mode
      · rw [if_neg fun hcond => hcond.1 hsame, if_pos hsame]
      · rw [if_pos ⟨hsame, hs.unbent_of_level hsame⟩, if_neg hsame]
    have hmode := hs.modeFor_level s.sup.lowreqLine
    have htaken := (hs.lowreqTaken_eq hheld).trans (State.enterMode_staying (s := s.levelTaken _) htest)
    have hexec : exec .lowreqLevelChange s = .next s.lowreqTaken := by
      rw [exec, execLowreqLevelChange, State.running_normal hr]
    refine ⟨_, hexec.trans (congrArg _ htaken), ?_, hbend, rfl, hr, rfl, rfl, rfl, rfl, rfl, rfl, rfl, rfl, rfl, rfl, rfl⟩
    exact congrArg (fun mode => { s.sup with lowreqLevel := s.sup.lowreqLine, lowreqHeld := none, mode := mode }) hmode

end Sys2Proof.Machine
end

section
/-! SUPPORT. TEST_ENTER and TEST_EXIT (R116, R117, R119) as executed commands. -/

namespace Sys2Proof.Machine

open Sys2Proof

/-- The ranges of a test program (R119). -/
theorem TestProgram.wellFormed_eq (p : TestProgram) :
    p.wellFormed
      = (!p.enabled.isEmpty && decide (p.storedIndex ≤ 15) && decide (p.level ≤ 1023) && (p.scale == 1 || p.scale == 2)
          && decide (1 ≤ p.dwellFrames) && decide (p.dwellFrames ≤ 1000)) := by
  have hscale : within 1 2 p.scale = (p.scale == 1 || p.scale == 2) := by
    rw [Bool.eq_iff_iff, within]
    simp only [Bool.and_eq_true, Bool.or_eq_true, decide_eq_true_eq, beq_iff_eq]
    omega
  rw [TestProgram.wellFormed, hscale, within, ← Bool.and_assoc]

/-- What TEST ENTER answers to a program it can read, in the order of its checks (R116). -/
theorem testEnterCommand_of_program {params : List Byte} {p : TestProgram} (hp : programArgs params = some p) (s : State) :
    testEnterCommand params s
      = if p.wellFormed = false then s.answer .badRange
        else if s.sup.mode ≠ .normal then s.answer .linkNotUp
        else if tooFast s.bank.active s.motion = true then s.answer .moving
        else { state := s.startTest p, code := .ok, data := [] } := by
  simp only [testEnterCommand, hp, Bool.not_eq_true']

/-- Settles O24: TEST_ENTER check by check, and both commands by what the start and the end of a test give. -/
theorem testEnterAndExit : Obligations.TestEnterAndExit := by
  have hopened : ∀ {s : State} (r : ManageRecord), s.executes = true → s.modeLaw = true → (s.opened r).ModeDecided :=
    fun r h hlaw => ((State.modeLaw_iff_modeDecided (State.inReset_of_executes h)).1 hlaw).of_eq
  constructor
  · intro r s p h hlaw hp formed moving
    have hexec : exec (.testEnter r) s = .next (s.manageRecord 0x09#8 r testEnterCommand) := by
      rw [exec, execTestEnter, State.running_normal (State.inReset_of_executes h)]
    have hrun := testEnterCommand_of_program hp (s.opened r)
    have hwell : p.wellFormed = formed := p.wellFormed_eq
    have hpass : formed = true → ¬ p.wellFormed = false := by
      rw [hwell, Bool.not_eq_false]
      exact id
    have hspeed : formed = true → s.sup.mode = .normal → testEnterCommand r.params (s.opened r)
        = if tooFast s.bank.active s.motion = true then (s.opened r).answer .moving
          else { state := (s.opened r).startTest p, code := .ok, data := [] } :=
      fun hformed hmode => hrun.trans ((if_neg (hpass hformed)).trans (if_neg (not_not.2 hmode)))
    rw [hexec]
    refine ⟨fun hformed => ?_, fun hformed hmode => ?_, fun hformed hmode hmoving => ?_, fun hformed hmode hmoving => ?_⟩
    · exact congrArg _ (State.answered_of_answer h (hrun.trans (if_pos (hwell.trans hformed))))
    · exact congrArg _ (State.answered_of_answer h (hrun.trans ((if_neg (hpass hformed)).trans (if_pos hmode))))
    · exact congrArg _ (State.answered_of_answer h ((hspeed hformed hmode).trans (if_pos hmoving)))
    · have hslow : ¬ tooFast s.bank.active s.motion = true := Bool.eq_false_iff.1 hmoving
      refine congrArg _ (State.answered_of_effect h ((hspeed hformed hmode).trans ((if_neg hslow).trans ?_)))
      rw [(hopened r h hlaw).startTest_eq hmode]
      rfl
  · intro r s h hlaw hparams
    have hexec : exec (.testExit r) s = .next (s.manageRecord 0x0A#8 r testExitCommand) := by
      rw [exec, execTestExit, State.running_normal (State.inReset_of_executes h)]
    have hrun : testExitCommand r.params (s.opened r)
        = { state := if s.sup.mode = .test then (s.opened r).endTest false else s.opened r, code := .ok, data := [] } :=
      withoutParams_of_nil _ hparams _
    rw [hexec]
    refine ⟨fun hmode => ?_, fun hmode => ?_⟩
    · rw [if_neg hmode] at hrun
      exact congrArg _ (State.answered_of_answer h hrun)
    · rw [if_pos hmode, (hopened r h hlaw).endTest_eq hmode, Flag.maskIf_false, State.raise_zero] at hrun
      refine congrArg _ (State.answered_of_effect h (hrun.trans ?_))
      rfl

end Sys2Proof.Machine
end

section
/-! SUPPORT. COLD_RESET and RESET_ENDS (R110, R137, R147): the values a cold reset leaves, and the state at its end. -/

namespace Sys2Proof.Machine

open Sys2Proof

/-- From the end of a cold reset with the line inactive the part stands at its reset state (R110, R137). -/
theorem State.endReset_coldReset {s : State} (hline : s.sup.lowreqLine = false) :
    s.coldReset.endReset = { State.reset with pending := s.pending } := by
  simp only [State.endReset, State.coldReset, resetUnder, hline]
  rfl

/-- Settles O3: the cold-reset values block by block, and the end of the reset by the level of the line. -/
theorem coldResetAndItsEnd : Obligations.ColdResetAndItsEnd := by
  refine ⟨fun s => ?_, fun s hr => ?_, fun s hr => ?_, fun s t hline ht => ?_, fun c s hr hcold hends hedge => ?_⟩
  · exact ⟨s.coldReset, rfl, rfl, rfl, rfl, rfl, rfl, rfl, rfl, rfl, rfl, rfl, rfl, rfl, rfl, rfl, rfl, rfl, rfl, rfl, rfl,
      rfl, rfl, rfl, rfl, rfl, rfl, rfl, rfl, rfl, rfl, fun _ _ => rfl, fun _ _ => rfl, rfl, rfl, rfl, rfl, rfl, rfl, rfl,
      rfl, rfl⟩
  · simp only [exec, execResetEnds, hr, Bool.false_eq_true, if_false]
  · simp only [exec, execResetEnds, hr, if_true]
    rfl
  · cases ht
    exact congrArg _ (State.endReset_coldReset hline)
  · cases c with
    | coldReset => exact absurd rfl hcold
    | resetEnds => exact absurd rfl hends
    | lowreqEdge active => exact absurd rfl (hedge active)
    | _ => exact congrArg _ (State.running_inReset hr _)

end Sys2Proof.Machine
end

section
/-! SUPPORT. Downstream frames (R122 to R128): the check of the Link Receiver and the readers of the payloads accept exactly the
bytes of the frames that can be sent, and the commands of such a frame are well formed. -/

namespace Sys2Proof

/-! ### Frames (R123, R125) -/

/-- The check of R123 accepts exactly whole frames with a payload that the link can carry and its class can read. -/
theorem receive_eq_some_iff (data : List Byte) (f : DownFrame) :
    receive data = some f
      ↔ ∃ cls payload, payload.length ≤ 1023 ∧ frameBytes cls payload = data ∧ parsePayload cls payload = some f := by
  constructor
  · intro h
    simp only [receive] at h
    split at h
    case h_1 cls l1 l2 payload hbody =>
      split_ifs at h with hcheck
      obtain ⟨hcrc, hmax, hlen⟩ := hcheck
      have hfield : wordBytes (BitVec.ofNat 16 payload.length) = [l1, l2] := by
        rw [← hlen, BitVec.ofNat_toNat, BitVec.setWidth_eq, wordBytes_of]
      have hframe : frameBody cls payload = data.take (data.length - 2) := by
        rw [hbody, frameBody, hfield]
        rfl
      refine ⟨cls, payload, hlen ▸ hmax, ?_, h⟩
      rw [frameBytes, hframe, ← hcrc, List.take_append_drop]
    case h_2 => cases h
  · rintro ⟨cls, payload, hmax, rfl, h⟩
    have hlen : (frameBytes cls payload).length - 2 = (frameBody cls payload).length := by
      simp only [frameBytes, List.length_append, wordBytes_length, Nat.add_sub_cancel]
    have hfield : (BitVec.ofNat 16 payload.length).toNat = payload.length := by
      rw [BitVec.toNat_ofNat]
      omega
    have htake : (frameBytes cls payload).take (frameBody cls payload).length = frameBody cls payload := List.take_left
    have hdrop : (frameBytes cls payload).drop (frameBody cls payload).length = wordBytes (crc16 (frameBody cls payload)) :=
      List.drop_left
    simp only [receive, hlen, htake, hdrop]
    show (if _ ∧ (wordOf _ _).toNat ≤ 1023 ∧ (wordOf _ _).toNat = payload.length then parsePayload cls payload else none) = _
    rw [wordOf_bytes, hfield, if_pos ⟨trivial, hmax, rfl⟩, h]

/-! ### Payloads (R126 to R128) -/

/-- Nine bytes are a MOTION payload, and no other number of bytes is one (R126). -/
theorem parseMotion_eq_some_iff (bs : List Byte) (m : MotionPayload) : parseMotion bs = some m ↔ motionBytes m = bs := by
  refine ⟨fun h => ?_, fun h => h ▸ parseMotion_bytes m⟩
  rw [parseMotion.eq_def] at h
  split at h
  · cases h
    simp only [motionBytes, wordBytes_of, List.cons_append, List.nil_append]
  · cases h

/-- Bytes read as `n` report records are the bytes of these records (R127). -/
theorem parseReports_some {n : Nat} {bs : List Byte} {rs : List SceneReport} (h : parseReports n bs = some rs) :
    rs.length = n ∧ rs.flatMap reportBytes = bs := by
  induction n generalizing bs rs with
  | zero =>
    rw [parseReports.eq_def] at h
    split at h
    · cases h; exact ⟨rfl, rfl⟩
    · contradiction
    · cases h
  | succ n ih =>
    rw [parseReports.eq_def] at h
    split at h
    · contradiction
    case h_2 hn =>
      obtain ⟨qs, hqs, rfl⟩ := Option.map_eq_some_iff.1 h
      cases hn
      obtain ⟨hlen, hbytes⟩ := ih hqs
      refine ⟨congrArg (· + 1) hlen, ?_⟩
      simp only [List.flatMap_cons, hbytes, reportBytes, wordBytes_of, List.cons_append, List.nil_append]
    · cases h

theorem sceneFramed_iff (p : ScenePayload) : p.framed = true ↔ p.reports.length = p.count ∧ p.count ≤ 12 := by
  rw [ScenePayload.framed, Bool.and_eq_true, beq_iff_eq, decide_eq_true_eq]

/-- A SCENE payload is read from its bytes where its header counts its records, 12 at most (R123, R127). -/
theorem parseScene_eq_some_iff (bs : List Byte) (p : ScenePayload) :
    parseScene bs = some p ↔ p.framed = true ∧ sceneBytes p = bs := by
  rw [sceneFramed_iff]
  constructor
  · intro h
    rw [parseScene.eq_def] at h
    split at h
    · split_ifs at h with hcount
      obtain ⟨rs, hrs, rfl⟩ := Option.map_eq_some_iff.1 h
      obtain ⟨hlen, hbytes⟩ := parseReports_some hrs
      exact ⟨⟨hlen, hcount⟩, congrArg (fun bs => _ :: _ :: bs) hbytes⟩
    · cases h
  · rintro ⟨⟨hlen, hcount⟩, rfl⟩
    have hread : parseReports p.count (p.reports.flatMap reportBytes) = some p.reports := by
      rw [← hlen, parseReports_bytes]
    exact (if_pos hcount).trans (by rw [← ScenePayload.count, hread]; rfl)

/-- A PATTERN payload is read from its bytes where it names a side and has 128 levels (R123, R126). -/
theorem parsePattern_eq_some_iff (bs : List Byte) (p : PatternPayload) :
    parsePattern bs = some p ↔ p.framed = true ∧ patternBytes p = bs := by
  constructor
  · intro h
    rw [parsePattern.eq_def] at h
    split at h
    · split at h
      case h_1 hws =>
        split_ifs at h with hframed
        cases h
        exact ⟨hframed, congrArg (_ :: ·) (parseWords_some hws)⟩
      · cases h
    · cases h
  · rintro ⟨hframed, rfl⟩
    simp only [patternBytes, parsePattern, parseWords_bytes, hframed, if_true]

/-- Bytes read as `n` command records are the bytes of these records, and each parameter length fits its byte (R128). -/
theorem parseRecords_some {n : Nat} {bs : List Byte} {rs : List RawRecord} (h : parseRecords n bs = some rs) :
    rs.length = n ∧ (∀ r ∈ rs, r.2.length ≤ 255) ∧ rs.flatMap recordBytes = bs := by
  induction n generalizing bs rs with
  | zero =>
    rw [parseRecords.eq_def] at h
    split at h
    · cases h; exact ⟨rfl, fun r hr => (nomatch hr), rfl⟩
    · contradiction
    · cases h
  | succ n ih =>
    rw [parseRecords.eq_def] at h
    split at h
    · contradiction
    case h_2 c l rest hn =>
      cases hn
      split_ifs at h with hl
      obtain ⟨qs, hqs, rfl⟩ := Option.map_eq_some_iff.1 h
      obtain ⟨hlen, hfit, hbytes⟩ := ih hqs
      have htake : (rest.take l.toNat).length = l.toNat := List.length_take_of_le hl
      refine ⟨congrArg (· + 1) hlen, fun r hr => ?_, ?_⟩
      · rcases List.mem_cons.1 hr with rfl | hr
        · have := l.isLt
          show (rest.take l.toNat).length ≤ 255
          omega
        · exact hfit r hr
      · simp only [List.flatMap_cons, recordBytes, hbytes, htake, BitVec.ofNat_toNat, BitVec.setWidth_eq, List.cons_append,
          List.take_append_drop]
    · cases h

/-- A MANAGE payload is read from its bytes where it has 1 to 8 records whose parameter lengths fit a byte (R123, R128). -/
theorem parseManage_eq_some_iff (bs : List Byte) (t : Byte) (rs : List RawRecord) :
    parseManage bs = some (t, rs)
      ↔ (1 ≤ rs.length ∧ rs.length ≤ 8 ∧ ∀ r ∈ rs, r.2.length ≤ 255) ∧ manageBytes t rs = bs := by
  constructor
  · intro h
    rw [parseManage.eq_def] at h
    split at h
    · split_ifs at h with hcount
      obtain ⟨qs, hqs, hpair⟩ := Option.map_eq_some_iff.1 h
      cases hpair
      obtain ⟨hlen, hfit, hbytes⟩ := parseRecords_some hqs
      rw [← hlen] at hcount
      refine ⟨⟨hcount.1, hcount.2, hfit⟩, ?_⟩
      rw [manageBytes, hlen, BitVec.ofNat_toNat, BitVec.setWidth_eq, hbytes]
    · cases h
  · rintro ⟨⟨hpos, hmax, hfit⟩, rfl⟩
    have hcount : (BitVec.ofNat 8 rs.length).toNat = rs.length := by
      rw [BitVec.toNat_ofNat]
      omega
    simp only [manageBytes, parseManage, hcount, parseRecords_bytes rs hfit, Option.map_some]
    exact if_pos ⟨hpos, hmax⟩

theorem manageFramed_iff (t : Byte) (rs : List RawRecord) :
    (DownFrame.manage t rs).framed = true
      ↔ (1 ≤ rs.length ∧ rs.length ≤ 8 ∧ ∀ r ∈ rs, r.2.length ≤ 255) ∧ (manageBytes t rs).length ≤ 1023 := by
  simp only [DownFrame.framed, Bool.and_eq_true, decide_eq_true_eq, List.all_eq_true, Config.manageCommands,
    Config.maxPayload, and_assoc]

theorem reportBytes_flatMap_length (rs : List SceneReport) : (rs.flatMap reportBytes).length = 18 * rs.length := by
  induction rs with
  | nil => rfl
  | cons r rs ih =>
    rw [List.flatMap_cons, List.length_append, ih, List.length_cons, show (reportBytes r).length = 18 from rfl]
    omega

/-- A frame that can be sent has a payload that the link can carry (R122, R125). -/
theorem DownFrame.payload_length_le {f : DownFrame} (h : f.framed = true) : f.payload.length ≤ 1023 := by
  cases f with
  | motion m => exact Nat.le_of_ble_eq_true rfl
  | scene p =>
    obtain ⟨hlen, hcount⟩ := (sceneFramed_iff p).1 h
    show (sceneBytes p).length ≤ 1023
    simp only [sceneBytes, List.length_cons, reportBytes_flatMap_length]
    omega
  | pattern p =>
    obtain ⟨-, hlen⟩ := (Machine.patternFramed_iff p).1 h
    show (patternBytes p).length ≤ 1023
    simp only [patternBytes, List.length_cons, wordsBytes_length, hlen]
    omega
  | manage t rs => exact ((manageFramed_iff t rs).1 h).2

/-- A payload that the link can carry is read under its class code as the frame that can be sent with it, and as no other. -/
theorem parsePayload_eq_some_iff {cls : Byte} {payload : List Byte} (hmax : payload.length ≤ 1023) (f : DownFrame) :
    parsePayload cls payload = some f ↔ f.framed = true ∧ f.cls = cls ∧ f.payload = payload := by
  constructor
  · intro h
    simp only [parsePayload] at h
    split_ifs at h with hmotion hscene hpattern hmanage <;> obtain ⟨x, hx, rfl⟩ := Option.map_eq_some_iff.1 h
    · exact ⟨rfl, hmotion.symm, (parseMotion_eq_some_iff _ _).1 hx⟩
    · obtain ⟨hframed, hbytes⟩ := (parseScene_eq_some_iff _ _).1 hx
      exact ⟨hframed, hscene.symm, hbytes⟩
    · obtain ⟨hframed, hbytes⟩ := (parsePattern_eq_some_iff _ _).1 hx
      exact ⟨hframed, hpattern.symm, hbytes⟩
    · obtain ⟨hrecords, hbytes⟩ := (parseManage_eq_some_iff _ _ _).1 hx
      exact ⟨(manageFramed_iff _ _).2 ⟨hrecords, hbytes ▸ hmax⟩, hmanage.symm, hbytes⟩
  · rintro ⟨hframed, rfl, rfl⟩
    cases f with
    | motion m => exact congrArg (Option.map _) (parseMotion_bytes m)
    | scene p => exact congrArg (Option.map _) ((parseScene_eq_some_iff _ p).2 ⟨hframed, rfl⟩)
    | pattern p => exact congrArg (Option.map _) ((parsePattern_eq_some_iff _ p).2 ⟨hframed, rfl⟩)
    | manage t rs =>
      exact congrArg (Option.map _) ((parseManage_eq_some_iff _ t rs).2 ⟨((manageFramed_iff t rs).1 hframed).1, rfl⟩)

/-- Settles O45: the check finds a header, a payload and the CRC, and the payload is read under its class code. -/
theorem receiverReadsExactlyFrames : Obligations.ReceiverReadsExactlyFrames := by
  intro data f
  rw [receive_eq_some_iff]
  constructor
  · rintro ⟨cls, payload, hmax, hdata, hread⟩
    obtain ⟨hframed, rfl, rfl⟩ := (parsePayload_eq_some_iff hmax f).1 hread
    exact ⟨hframed, hdata⟩
  · rintro ⟨hframed, hdata⟩
    have hmax := DownFrame.payload_length_le hframed
    exact ⟨f.cls, f.payload, hmax, hdata, (parsePayload_eq_some_iff hmax f).2 ⟨hframed, rfl, rfl⟩⟩

/-! ### The commands of a frame (R124, R128) -/

/-- A MANAGE frame's commands stand in the order of its records, the last one marked. -/
theorem recordCommands_eq_mapIdx (tag : Byte) (rs : List RawRecord) :
    recordCommands tag rs
      = rs.mapIdx fun i r => commandOf r.1 { tag := tag, last := decide (i + 1 = rs.length), params := r.2 } := by
  induction rs with
  | nil => rfl
  | cons r rs ih =>
    cases rs with
    | nil => rfl
    | cons q rs =>
      rw [recordCommands, ih, List.mapIdx_cons]
      · simp [eq_comm (a := 0)]
      · exact fun h => nomatch h

/-- The command of a record is well formed where the parameter length fits its byte; an unnamed code is unknown (R128). -/
theorem commandOf_wf (code : Byte) {r : ManageRecord} (h : r.wf = true) : (commandOf code r).wf = true := by
  rw [commandOf]
  split
  case h_16 =>
    have hunknown : unknownCode code = true := by
      simp only [unknownCode, Bool.or_eq_true, decide_eq_true_eq]
      simp only [imp_false] at *
      omega
    rw [Instr.wf, hunknown, h]
    rfl
  all_goals exact h

/-- The commands of a frame that can be sent are well formed. -/
theorem DownFrame.commands_wf {f : DownFrame} (h : f.framed = true) : ∀ c ∈ f.commands, c.wf = true := by
  intro c hc
  cases f with
  | motion m => rw [List.mem_singleton.1 hc]; rfl
  | scene p => rw [List.mem_singleton.1 hc]; exact h
  | pattern p => rw [List.mem_singleton.1 hc]; exact h
  | manage t rs =>
    obtain ⟨⟨-, -, hfit⟩, -⟩ := (manageFramed_iff t rs).1 h
    rw [DownFrame.commands, recordCommands_eq_mapIdx] at hc
    obtain ⟨i, hi, rfl⟩ := List.mem_mapIdx.1 hc
    exact commandOf_wf _ (decide_eq_true (hfit _ (List.getElem_mem hi)))

/-- Settles O46: an accepted frame can be sent, so that its commands are well formed; a MANAGE frame is read as it was sent. -/
theorem linkCommandsAreWellFormed : Obligations.LinkCommandsAreWellFormed := by
  refine ⟨fun data hlen c hc => ?_, fun tag rs hframed => ?_⟩
  · rw [linkCommands] at hc
    cases hread : receive data with
    | none =>
      rw [hread] at hc
      rw [List.mem_singleton.1 hc, Instr.wf, hread, Option.isNone_none, Bool.true_and]
      exact decide_eq_true hlen
    | some f =>
      rw [hread] at hc
      exact DownFrame.commands_wf ((receiverReadsExactlyFrames data f).1 hread).1 c hc
  · have hread := (receiverReadsExactlyFrames _ _).2 ⟨hframed, rfl⟩
    rw [linkCommands, hread]
    exact recordCommands_eq_mapIdx tag rs

end Sys2Proof
end

section
/-! SUPPORT. The payloads of the upstream frames (R129, R160): their lengths. -/

namespace Sys2Proof.Machine

open Sys2Proof

theorem chipBytes_length (r : ChipRecord) : (chipBytes r).length = 7 := rfl

theorem outcomeBytes_length (o : CommitOutcome) : (outcomeBytes o).length = 4 := by cases o <;> rfl

/-- The chip records of a side fill 7 bytes each (R129). -/
theorem chipBytes_flatMap_length (rs : List ChipRecord) : (rs.flatMap chipBytes).length = 7 * rs.length := by
  induction rs with
  | nil => rfl
  | cons r rs ih =>
    rw [List.flatMap_cons, List.length_append, ih, chipBytes_length, List.length_cons]
    omega

/-- Result records with `n` data bytes at most fill `n` + 3 bytes each at most (R129). -/
theorem resultBytes_flatMap_length_le {n : Nat} {rs : List CommandResult} (h : ∀ r ∈ rs, r.data.length ≤ n) :
    (rs.flatMap resultBytes).length ≤ (n + 3) * rs.length := by
  induction rs with
  | nil => exact Nat.zero_le _
  | cons r rs ih =>
    have hr := h r List.mem_cons_self
    have hrs := ih fun x hx => h x (List.mem_cons_of_mem _ hx)
    rw [List.flatMap_cons, List.length_append, List.length_cons, Nat.mul_succ,
      show (resultBytes r).length = r.data.length + 3 by rw [resultBytes, List.length_append, Nat.add_comm]; rfl]
    omega

/-- Settles O47: the fixed fields are counted; chip records take 7 bytes each, result records 99 at most. -/
theorem upstreamPayloadLengths : Obligations.UpstreamPayloadLengths := by
  refine ⟨fun r hleft hright => ?_, fun d chip result => rfl, fun tag rs hcount hdata => ?_⟩
  · simp only [statusBytes, natWordBytes, intWordBytes, windowCountBytes, List.length_append, List.length_cons,
      List.length_nil, wordBytes_length, outcomeBytes_length, chipBytes_flatMap_length, hleft, hright]
  · have hresults := resultBytes_flatMap_length_le hdata
    simp only [replyBytes, List.length_cons]
    omega

end Sys2Proof.Machine
end

section
/-! SUPPORT. START_SYMBOL and LINK_FRAME_ERROR (R122, R123). -/

namespace Sys2Proof.Machine

open Sys2Proof

/-- Settles O7: each cause of a discard has one effect; the bytes of a frame that can be sent pass the check of R123. -/
theorem receiverDiscardsFrames : Obligations.ReceiverDiscardsFrames := by
  refine ⟨fun s hr hidle => ?_, fun s hr hpartial => ?_, fun cause s hr hfails => ?_, fun f s hr hframed => ?_⟩
  · rw [exec, execStartSymbol, State.running_normal hr, State.startReceived, hidle]
    rfl
  · rw [exec, execStartSymbol, State.running_normal hr, State.startReceived, hpartial]
    rfl
  · rw [exec, execLinkFrameError, State.running_normal hr]
    cases cause with
    | startInFrame => rfl
    | overflow => rfl
    | failedCheck data =>
      rw [State.frameFails, hfails data rfl]
      rfl
  · rw [exec, execLinkFrameError, State.running_normal hr, State.frameFails,
      (receiverReadsExactlyFrames _ f).2 ⟨hframed, rfl⟩]
    rfl

end Sys2Proof.Machine
end

section
/-! SUPPORT. The command that a MANAGE record's code names (R128, R159): its own part, and the parameter lengths it refuses. -/

namespace Sys2Proof.Machine

open Sys2Proof

/-- The command's own part that a code names (R128). -/
def manageRun (code : Byte) : List Byte → State → CommandEffect :=
  match code.toNat with
  | 0x01 => tableWriteCommand
  | 0x02 => tableReadCommand
  | 0x03 => commitCommand
  | 0x04 => discardCommand
  | 0x05 => statusNowCommand
  | 0x06 => flagClearCommand
  | 0x07 => sceneClearCommand
  | 0x08 => frameAlignCommand
  | 0x09 => testEnterCommand
  | 0x0A => testExitCommand
  | 0x0B => portHaltCommand
  | 0x0C => portStopCommand
  | 0x0D => portResumeCommand
  | 0x0E => driverPassCommand
  | 0x0F => warmResetCommand
  | _ => unknownCommandEffect

/-- A code is the byte of its number. -/
theorem byte_eq_of_toNat {code : Byte} {n : Nat} (h : code.toNat = n) : code = BitVec.ofNat 8 n := by
  rw [← h, BitVec.ofNat_toNat, BitVec.setWidth_eq]

/-- A running part takes a record as one command of its MANAGE frame, under the record's code (R158 to R160). -/
theorem exec_commandOf {s : State} (hr : s.inReset = false) (code : Byte) (r : ManageRecord) :
    exec (commandOf code r) s = .next (s.manageRecord code r (manageRun code)) := by
  rw [commandOf]
  split
  case h_16 =>
    have hrun : manageRun code = unknownCommandEffect := by
      rw [manageRun]
      split
      case h_16 => rfl
      all_goals contradiction
    rw [exec, execUnknownCommand, State.running_normal hr, hrun]
  all_goals
    rename_i hcode
    cases byte_eq_of_toNat hcode
    exact congrArg _ (State.running_normal hr _)

theorem noArgs_of_length {params : List Byte} (h : params.length ≠ 0) : noArgs params = none := by
  cases params with
  | nil => exact absurd rfl h
  | cons b params => rfl

theorem byteArg_of_length {params : List Byte} (h : params.length ≠ 1) : byteArg params = none := by
  rw [byteArg.eq_def]
  split
  · exact absurd rfl h
  · rfl

theorem wordArg_of_length {params : List Byte} (h : params.length ≠ 2) : wordArg params = none := by
  rw [wordArg.eq_def]
  split
  · exact absurd rfl h
  · rfl

theorem readArgs_of_length {params : List Byte} (h : params.length ≠ 5) : readArgs params = none := by
  rw [readArgs.eq_def]
  split
  · exact absurd rfl h
  · rfl

theorem programArgs_of_length {params : List Byte} (h : params.length ≠ 9) : programArgs params = none := by
  rw [programArgs.eq_def]
  split
  · exact absurd rfl h
  · rfl

theorem passArgs_of_length {params : List Byte} (h : params.length ≠ 6) : passArgs params = none := by
  rw [passArgs.eq_def]
  split
  · exact absurd rfl h
  · rfl

/-- TABLE WRITE has four bytes and the words that the fourth counts (R128). -/
theorem writeArgs_of_length {params : List Byte} (h : 4 ≤ params.length → params.length ≠ 4 + 2 * (params.getD 3 0#8).toNat) :
    writeArgs params = none := by
  rw [writeArgs.eq_def]
  split
  case h_1 t o1 o2 n rest =>
    split
    case h_1 ws hws =>
      have hlen : rest.length = 2 * ws.length := by rw [← parseWords_some hws, wordsBytes_length]
      refine if_neg fun hcount => h (by simp) ?_
      show rest.length + 4 = 4 + 2 * n.toNat
      omega
    · rfl
  · rfl

/-- A command without parameters refuses a record that carries some (R159). -/
theorem withoutParams_of_length {run : State → CommandEffect} {params : List Byte} (h : params.length ≠ 0) (s : State) :
    withoutParams run params s = s.answer .badRange := by
  rw [withoutParams, noArgs_of_length h]

/-- A port control command refuses a record that has not one parameter byte (R159). -/
theorem portCommand_of_length {act : BankCopy → Port → Port} {params : List Byte} (h : params.length ≠ 1) (s : State) :
    portCommand act params s = s.answer .badRange := by
  rw [portCommand, byteArg_of_length h]

/-- Every command refuses parameters of a wrong length with BAD_RANGE (R159). -/
theorem manageRun_of_length {code : Byte} {params : List Byte} (hlow : 1 ≤ code.toNat) (hhigh : code.toNat ≤ 15)
    (h : lengthFits code.toNat params = false) (s : State) : manageRun code params s = s.answer .badRange := by
  have hne : ∀ {n : Nat}, (params.length == n) = false → params.length ≠ n := fun hlen => beq_eq_false_iff_ne.1 hlen
  rw [manageRun]
  generalize code.toNat = n at *
  split
  · rw [tableWriteCommand, writeArgs_of_length fun hmin => hne ?_]
    rwa [lengthFits, decide_eq_true hmin, Bool.true_and] at h
  · rw [tableReadCommand, readArgs_of_length (hne h)]
  · exact withoutParams_of_length (hne h) s
  · exact withoutParams_of_length (hne h) s
  · exact withoutParams_of_length (hne h) s
  · rw [flagClearCommand, wordArg_of_length (hne h)]
  · exact withoutParams_of_length (hne h) s
  · rw [frameAlignCommand, wordArg_of_length (hne h)]
  · rw [testEnterCommand, programArgs_of_length (hne h)]
  · exact withoutParams_of_length (hne h) s
  · exact portCommand_of_length (hne h) s
  · exact portCommand_of_length (hne h) s
  · exact portCommand_of_length (hne h) s
  · rw [driverPassCommand, passArgs_of_length (hne h)]
  · exact withoutParams_of_length (hne h) s
  · simp only [imp_false] at *
    omega

/-- Settles O21: the record's command answers BAD_RANGE or BAD_COMMAND in its MANAGE frame and has no effect. -/
theorem badLengthAndUnknownCode : Obligations.BadLengthAndUnknownCode := by
  refine ⟨fun code r s h hlow hhigh hlen => ?_, fun code r s h => ?_⟩
  · rw [exec_commandOf (State.inReset_of_executes h)]
    exact congrArg _ (State.answered_of_answer h (manageRun_of_length hlow hhigh hlen _))
  · rw [exec, execUnknownCommand, State.running_normal (State.inReset_of_executes h)]
    exact congrArg _ (State.answered_of_answer h rfl)

end Sys2Proof.Machine
end

section
/-! SUPPORT. A MOTION arrival at the Link Monitor (R130 to R132): the interval in exact integers, and the arrival by link state. -/

namespace Sys2Proof.Machine

open Sys2Proof

/-- The distance of two values is that of the integers. -/
theorem distance_eq_natAbs (x y : Nat) : distance x y = ((x : Int) - y).natAbs := by
  rw [distance]
  omega

/-- The interval is in band when it lies within the tolerance of the nominal interval (R131). -/
theorem inBand_eq (b : BankCopy) (i : Nat) :
    inBand b i = decide ((((i : Int) - natField b 0 0).natAbs : Int) ≤ natField b 0 1) := by
  rw [inBand, distance_eq_natAbs]
  exact decide_eq_decide.2 Int.ofNat_le.symm

/-- The estimate after an interval: kept within the hysteresis, and else the interval clamped to the band (R131). -/
theorem nextEstimate_eq (b : BankCopy) (e i : Nat) :
    (nextEstimate b e i : Int)
      = if (natField b 0 2 : Int) < ((i : Int) - e).natAbs
          then max (max 0 ((natField b 0 0 : Int) - natField b 0 1)) (min ((natField b 0 0 : Int) + natField b 0 1) i)
          else e := by
  have hclamp : (clampBand b i : Int)
      = max (max 0 ((natField b 0 0 : Int) - natField b 0 1)) (min ((natField b 0 0 : Int) + natField b 0 1) i) := by
    rw [clampBand, linkNominal, linkTolerance, idLink]
    omega
  rw [nextEstimate, linkHysteresis, distance_eq_natAbs, ← hclamp]
  simp only [Int.ofNat_lt]
  split_ifs <;> rfl

/-- Every arrival starts the gap again (R130). -/
theorem LinkMonitor.arrival_gap (b : BankCopy) (now : MsTime) (m : LinkMonitor) :
    (m.arrival b now).lastArrival = now ∧ (m.arrival b now).lapseTaken = false ∧ (m.arrival b now).lossTaken = false := by
  rw [LinkMonitor.arrival]
  split <;> exact ⟨rfl, rfl, rfl⟩

/-- An arrival in DOWN begins SETTLING at the nominal interval (R132). -/
theorem LinkMonitor.arrival_down {m : LinkMonitor} (h : m.state = .down) (b : BankCopy) (now : MsTime) :
    (m.arrival b now).state = .settling ∧ (m.arrival b now).estimate = linkNominal b ∧ (m.arrival b now).stable = 0 := by
  simp only [LinkMonitor.arrival, h, and_self]

/-- An arrival outside DOWN updates E by its interval (R131). -/
theorem LinkMonitor.arrival_estimate {m : LinkMonitor} (h : m.state ≠ .down) (b : BankCopy) (now : MsTime) :
    (m.arrival b now).estimate = nextEstimate b m.estimate (m.gap now) := by
  rw [LinkMonitor.arrival]
  split
  case h_1 hdown => exact absurd hdown h
  all_goals rfl

/-- An arrival in SETTLING counts an interval in band, and the link is UP at the stability count (R132). -/
theorem LinkMonitor.arrival_settling {m : LinkMonitor} (h : m.state = .settling) (b : BankCopy) (now : MsTime) :
    (m.arrival b now).stable = (if inBand b (m.gap now) = true then m.stable + 1 else 0)
      ∧ (m.arrival b now).state
        = if inBand b (m.gap now) = true ∧ linkStability b ≤ m.stable + 1 then .up else .settling := by
  simp only [LinkMonitor.arrival, h, Bool.and_eq_true, decide_eq_true_eq, true_and]
  refine if_congr (and_congr_right fun hband => ?_) rfl rfl
  rw [if_pos hband]

/-- An arrival in UP or LAPSED leaves the link UP, and the stable count (R132). -/
theorem LinkMonitor.arrival_lasting {m : LinkMonitor} (hdown : m.state ≠ .down) (hsettling : m.state ≠ .settling)
    (b : BankCopy) (now : MsTime) : (m.arrival b now).stable = m.stable ∧ (m.arrival b now).state = .up := by
  rw [LinkMonitor.arrival]
  split
  case h_1 h => exact absurd h hdown
  case h_2 h => exact absurd h hsettling
  case h_3 h => exact ⟨rfl, h⟩
  case h_4 h => exact ⟨rfl, rfl⟩

/-- After a MOTION frame the Link Monitor is as the arrival leaves it (R124, R132). -/
theorem State.motionArrives_link (s : State) (m : MotionPayload) :
    (s.motionArrives m).link = s.link.arrival s.bank.active s.time.msClock := by
  obtain ⟨-, -, hchecked, -⟩ := State.testSpeedCheck_frame
    (State.withLink { s with rx := s.rx.accepted (frameBytes classMotion (motionBytes m)), motion := motionOf m }
      { link := s.link.arrival s.bank.active s.time.msClock, mask := 0#16 })
  rw [State.motionArrives_eq, hchecked]
  exact (State.withLink_frame _ _).1

/-- Settles O9: the arrival by the link state it finds, its interval the gap. -/
theorem motionArrivalAtMonitor : Obligations.MotionArrivalAtMonitor := by
  intro m s hr
  refine ⟨s.motionArrives m, by rw [exec, execMotionFrame, State.running_normal hr], ?_⟩
  rw [State.motionArrives_link]
  obtain ⟨hlast, hlapse, hloss⟩ := LinkMonitor.arrival_gap s.bank.active s.time.msClock s.link
  refine ⟨hlast, hlapse, hloss, fun hdown => LinkMonitor.arrival_down hdown _ _, fun hdown => ?_⟩
  intro i nominal tolerance hysteresis band
  have hband : inBand s.bank.active (s.link.gap s.time.msClock) = band := inBand_eq _ _
  refine ⟨?_, fun hsettling => ?_, fun hsettling => LinkMonitor.arrival_lasting hdown hsettling _ _⟩
  · rw [LinkMonitor.arrival_estimate hdown]
    exact nextEstimate_eq _ _ _
  · rw [← hband]
    exact LinkMonitor.arrival_settling hsettling _ _

end Sys2Proof.Machine
end

section
/-! SUPPORT. The events at which the link leaves for a state other than UP (R111, R112, R117, R133, R134): what the change gives the
other blocks, and with it the two expiries of the gap and the line squelch. -/

namespace Sys2Proof.Machine

open Sys2Proof

/-! ### The link leaves for a state other than UP (R111, R112, R117) -/

/-- The state in which a part that runs enters `mode` as its link leaves for a state other than UP: a test ends with TEST_ENDED
and both ports resume, and the bend is set to 0 where a new mode holds it there. -/
def State.linkLeaves (s : State) (e : LinkEffect) (mode : BeamMode) : State :=
  { (s.raise e.mask).raise (Flag.testEnded.maskIf (decide (s.sup.mode = .test))) with
    link := e.link
    sup := { (if s.sup.mode = .test then s.sup.clearTest else s.sup) with mode := mode }
    bend := if mode ≠ s.sup.mode ∧ mode.unbent = true then s.bend.straight else s.bend
    ports := if s.sup.mode = .test then Sided.of (fun d => (s.ports.get d).resume s.bank.active) else s.ports }

/-- A change of the link to a state other than UP is one decision of the table's mode, without a test (R111, R117). -/
theorem State.ModeDecided.withLink_leaving {s : State} (h : s.ModeDecided) {e : LinkEffect}
    (hne : e.link.state ≠ s.link.state) (hup : e.link.state ≠ .up) {mode : BeamMode}
    (hmode : modeFor e.link.state false s.sup.lowreqLevel = mode) : s.withLink e = s.linkLeaves e mode := by
  let u : State := ({ s with link := e.link } : State).raise e.mask
  have hw : s.withLink e = u.decideMode := if_neg hne
  have htest : u.sup.testActive = decide (s.sup.mode = .test) := h.testActive_eq
  have hleaves : mode ≠ .test := fun hm => hup (modeFor_test (hmode.trans hm))
  by_cases hm : s.sup.mode = .test
  · let v : State := { u.raise Flag.testEnded.mask with sup := { u.sup with testActive := false } }
    have hv : u.decideMode = v.enterMode mode :=
      (State.decideMode_end (htest.trans (decide_eq_true hm)) hup).trans (congrArg v.enterMode hmode)
    rw [hw, hv, State.enterMode_leavingTest (s := v) hm hleaves]
    simp only [State.linkLeaves, hm, ne_eq, hleaves, not_false_eq_true, true_and, if_true, decide_true]
    rfl
  · have hidle : u.sup.testActive = false := htest.trans (decide_eq_false hm)
    have hu : u.decideMode = u.enterMode mode := by
      rw [State.decideMode_keep fun hactive => absurd (hidle.symm.trans hactive) Bool.false_ne_true, hidle]
      exact congrArg u.enterMode hmode
    rw [hw, hu, State.enterMode_staying (s := u) fun hm' => absurd hm' hm]
    simp only [State.linkLeaves, hm, if_false, decide_false, Flag.maskIf_false, State.raise_zero]
    rfl

/-- A flag as the link leaves: set before, of the event's own mask, or TEST_ENDED of a test (R163). -/
theorem State.linkLeaves_flag (s : State) (e : LinkEffect) (mode : BeamMode) (f : Flag) :
    (s.linkLeaves e mode).flag f
      = (s.flag f || e.mask.getLsbD f.bit || (decide (s.sup.mode = .test) && decide (Flag.testEnded = f))) := by
  show State.flag ((s.raise e.mask).raise _) f = _
  rw [State.raise_flag, State.raise_flag, Flag.maskIf_bit]

/-- Both ports resume as the link leaves a test, and otherwise go on (R106, R112). -/
theorem State.linkLeaves_port (s : State) (e : LinkEffect) (mode : BeamMode) (d : Side) :
    (s.linkLeaves e mode).ports.get d
      = if s.sup.mode = .test then (s.ports.get d).resume s.bank.active else s.ports.get d := by
  show Sided.get (if _ then _ else _) d = _
  split_ifs
  · exact Sided.get_of _ d
  · rfl

/-- Without a test the link's leaving sets the event's own flags alone, and of the Supervisor changes the mode alone. -/
theorem State.linkLeaves_of_ne_test {s : State} (h : s.sup.mode ≠ .test) (e : LinkEffect) (mode : BeamMode) :
    (s.linkLeaves e mode).mgmt = (s.raise e.mask).mgmt ∧ (s.linkLeaves e mode).sup = { s.sup with mode := mode }
      ∧ (s.linkLeaves e mode).ports = s.ports := by
  simp only [State.linkLeaves, h, if_false, decide_false, Flag.maskIf_false, State.raise_zero, and_self]

/-- A new mode that holds the bend at 0 sets it to 0 (R38, R112). -/
theorem State.linkLeaves_bend_of_unbent {mode : BeamMode} (h : mode.unbent = true) (s : State) (e : LinkEffect) :
    (s.linkLeaves e mode).bend = if mode = s.sup.mode then s.bend else s.bend.straight := by
  simp only [State.linkLeaves, h, and_true, ne_eq, ite_not]

/-- The mode while the link is DOWN or SETTLING: FALLBACK or DARK, by the LOWREQ level (R111). -/
def levelMode (level : Bool) : BeamMode := if level = true then .fallback else .dark

theorem modeFor_down (testActive level : Bool) : modeFor .down testActive level = levelMode level := rfl

/-- FALLBACK and DARK hold the bend at 0 (R38). -/
theorem levelMode_unbent (level : Bool) : (levelMode level).unbent = true := by cases level <;> rfl

theorem levelMode_ne_hold (level : Bool) : levelMode level ≠ .hold := by cases level <;> decide

theorem State.ModeDecided.mode_of_settling {s : State} (h : s.ModeDecided) (hl : s.link.state = .settling) :
    s.sup.mode = levelMode s.sup.lowreqLevel := by
  rw [h.mode, hl]
  rfl

theorem State.ModeDecided.mode_of_down {s : State} (h : s.ModeDecided) (hl : s.link.state = .down) :
    s.sup.mode = levelMode s.sup.lowreqLevel := by
  rw [h.mode, hl]
  rfl

/-- In LAPSED the mode is HOLD (R111). -/
theorem State.ModeDecided.mode_of_lapsed {s : State} (h : s.ModeDecided) (hl : s.link.state = .lapsed) :
    s.sup.mode = .hold := by
  rw [h.mode, hl]
  rfl

/-- A test stands only while the link is UP (R111). -/
theorem State.ModeDecided.mode_ne_test {s : State} (h : s.ModeDecided) (hl : s.link.state ≠ .up) : s.sup.mode ≠ .test :=
  fun hm => hl (h.up_of_test hm)

/-! ### The expiries of the gap (R133) -/

theorem lapseDue_iff (b : BankCopy) (now : MsTime) (m : LinkMonitor) :
    lapseDue b now m = true
      ↔ (m.state = .settling ∨ m.state = .up) ∧ m.lapseTaken = false
        ∧ m.estimate * natField b 0 4 < (now - m.lastArrival).toNat := by
  simp only [lapseDue, Bool.and_eq_true, Bool.not_eq_true', decide_eq_true_eq, and_assoc]
  rfl

theorem lossDue_iff (b : BankCopy) (now : MsTime) (m : LinkMonitor) :
    lossDue b now m = true
      ↔ (m.state = .settling ∨ m.state = .lapsed) ∧ m.lossTaken = false
        ∧ natField b 0 5 < (now - m.lastArrival).toNat := by
  simp only [lossDue, Bool.and_eq_true, Bool.not_eq_true', decide_eq_true_eq, and_assoc]
  rfl

/-- An event that finds nothing to do at the Link Monitor changes nothing. -/
theorem State.withLink_self (s : State) : s.withLink { link := s.link, mask := 0#16 } = s := by
  rw [State.withLink, if_pos rfl]
  exact State.raise_zero s

/-- An expiry that is not due does not come (R133). -/
theorem LinkMonitor.lapse_of_not_due {b : BankCopy} {now : MsTime} {m : LinkMonitor} (h : lapseDue b now m = false) :
    m.lapse b now = { link := m, mask := 0#16 } := by
  rw [LinkMonitor.lapse, h]
  rfl

theorem LinkMonitor.lapse_settling {b : BankCopy} {now : MsTime} {m : LinkMonitor} (h : lapseDue b now m = true)
    (hl : m.state = .settling) : m.lapse b now = { link := { m with stable := 0, lapseTaken := true }, mask := 0#16 } := by
  simp only [LinkMonitor.lapse, h, hl, if_true]

theorem LinkMonitor.lapse_up {b : BankCopy} {now : MsTime} {m : LinkMonitor} (h : lapseDue b now m = true)
    (hl : m.state = .up) :
    m.lapse b now = { link := { m with state := .lapsed, lapseTaken := true }, mask := Flag.linkLapsed.mask } := by
  simp only [LinkMonitor.lapse, h, hl, if_true]

/-- Settles O11: an expiry that is not due does nothing, and one that is due by the state the link leaves. -/
theorem gapExpiries : Obligations.GapExpiries := by
  have hlapse : ∀ s : State, s.inReset = false →
      exec .lapseExpiry s = .next (s.withLink (s.link.lapse s.bank.active s.time.msClock)) := fun s hr => by
    rw [exec, execLapseExpiry, State.running_normal hr, State.lapseExpires]
  have hloss : ∀ s : State, s.inReset = false →
      exec .lossExpiry s = .next (s.withLink (s.link.loss s.bank.active s.time.msClock)) := fun s hr => by
    rw [exec, execLossExpiry, State.running_normal hr, State.lossExpires]
  refine ⟨fun s hr hno => ?_, fun s hr hno => ?_, fun s hr hl htaken hgap => ?_, fun s hr hlaw hl htaken hgap => ?_,
    fun s hr hlaw hl htaken hgap => ?_⟩
  · rw [hlapse s hr, LinkMonitor.lapse_of_not_due hno, State.withLink_self]
  · rw [hloss s hr, LinkMonitor.loss, hno]
    exact congrArg _ s.withLink_self
  · have hdue := (lapseDue_iff s.bank.active s.time.msClock s.link).2 ⟨.inl hl, htaken, hgap⟩
    rw [hlapse s hr, LinkMonitor.lapse_settling hdue hl, State.withLink, if_pos rfl]
    exact congrArg _ (State.raise_zero _)
  · have hs := (State.modeLaw_iff_modeDecided hr).1 hlaw
    let e : LinkEffect := { link := { s.link with state := .lapsed, lapseTaken := true }, mask := Flag.linkLapsed.mask }
    have hlapsed : s.link.lapse s.bank.active s.time.msClock = e :=
      LinkMonitor.lapse_up ((lapseDue_iff _ _ _).2 ⟨.inr hl, htaken, hgap⟩) hl
    have hleaves : s.withLink e = s.linkLeaves e .hold :=
      hs.withLink_leaving (fun hsame : LinkState.lapsed = _ => nomatch hsame.trans hl)
        (fun hup : LinkState.lapsed = .up => nomatch hup) rfl
    refine ⟨s.linkLeaves e .hold, by rw [hlapse s hr, hlapsed, hleaves], rfl, rfl, if_neg fun hbend => (nomatch hbend.2),
      ?_, ?_, fun hm => ?_, fun hm d => ?_, rfl, rfl, rfl, rfl, rfl, rfl, rfl, rfl, rfl⟩
    · rw [State.linkLeaves_flag, Flag.mask_bit]
      simp
    · rw [State.linkLeaves_flag, Flag.mask_bit]
      simp
    · obtain ⟨-, hsup, hports⟩ := State.linkLeaves_of_ne_test (fun htest => nomatch hm.symm.trans htest) e .hold
      exact ⟨hports, hsup⟩
    · rw [State.linkLeaves_port, if_pos hm]
  · have hs := (State.modeLaw_iff_modeDecided hr).1 hlaw
    let e : LinkEffect :=
      { link := { s.link with state := .down, stable := 0, lossTaken := true }, mask := Flag.linkDown.mask }
    let mode := levelMode s.sup.lowreqLevel
    have hlost : s.link.loss s.bank.active s.time.msClock = e := if_pos ((lossDue_iff _ _ _).2 ⟨hl, htaken, hgap⟩)
    have hstate : LinkState.down ≠ s.link.state ∧ s.link.state ≠ .up := by
      rcases hl with hl | hl <;> rw [hl] <;> decide
    obtain ⟨hnotDown, hnotUp⟩ := hstate
    have hleaves : s.withLink e = s.linkLeaves e mode :=
      hs.withLink_leaving hnotDown (fun hup : LinkState.down = .up => nomatch hup) (modeFor_down false _)
    obtain ⟨hmgmt, hsup, hports⟩ := State.linkLeaves_of_ne_test (hs.mode_ne_test hnotUp) e mode
    refine ⟨s.linkLeaves e mode, by rw [hloss s hr, hlost, hleaves], rfl, hsup, ?_, hmgmt, rfl, rfl, rfl, rfl, rfl, rfl,
      hports, rfl, rfl⟩
    rw [State.linkLeaves_bend_of_unbent (levelMode_unbent _)]
    rcases hl with hl | hl
    · rw [if_pos (hs.mode_of_settling hl).symm, if_neg fun hlapsed : s.link.state = .lapsed => nomatch hl.symm.trans hlapsed]
    · rw [if_neg fun hsame => levelMode_ne_hold _ (hsame.trans (hs.mode_of_lapsed hl)), if_pos hl]
      rfl

/-! ### Line squelch (R134) -/

/-- A partial frame is discarded at a squelch (R122): the buffer and the count where there is one, and FRAME_ERROR. -/
theorem State.squelched_eq (s : State) :
    s.squelched
      = State.withLink
          (({ s with
              rx := if s.rx.assembling = true
                then { assembling := false, buffer := [], errorCount := min 65535 (s.rx.errorCount + 1) } else s.rx } :
            State).raise (Flag.frameError.maskIf s.rx.assembling))
          s.link.squelch := by
  rw [State.squelched]
  cases h : s.rx.assembling
  · rw [if_neg Bool.false_ne_true, if_neg Bool.false_ne_true, Flag.maskIf_false, State.raise_zero]
  · rfl

/-- Settles O12: the discard of a partial frame, and then the link's leaving for DOWN, or nothing where it is DOWN. -/
theorem squelchTakesLinkDown : Obligations.SquelchTakesLinkDown := by
  intro s hr hlaw
  let rx : Receiver := if s.rx.assembling = true
    then { assembling := false, buffer := [], errorCount := min 65535 (s.rx.errorCount + 1) } else s.rx
  let u : State := ({ s with rx := rx } : State).raise (Flag.frameError.maskIf s.rx.assembling)
  have hu : u.ModeDecided := ((State.modeLaw_iff_modeDecided hr).1 hlaw).of_eq
  have hflag : ∀ f, u.flag f = (s.flag f || (s.rx.assembling && decide (Flag.frameError = f))) := fun f => by
    rw [State.raise_flag, Flag.maskIf_bit]
    rfl
  have hexec : exec .lineSquelch s = .next (u.withLink s.link.squelch) := by
    rw [exec, execLineSquelch, State.running_normal hr, State.squelched_eq]
  by_cases hl : s.link.state = .down
  · have hsquelch : s.link.squelch = { link := u.link, mask := 0#16 } := if_pos hl
    have hmode : s.sup.mode = levelMode s.sup.lowreqLevel := hu.mode_of_down hl
    have htest : s.sup.mode ≠ .test := hu.mode_ne_test fun hup : s.link.state = .up => nomatch hl.symm.trans hup
    refine ⟨u, by rw [hexec, hsquelch, State.withLink_self], rfl, ?_, ?_, ?_, fun _ => ⟨rfl, rfl, rfl⟩,
      fun hno => absurd hl hno, hmode, (if_pos rfl).symm, fun d => (if_neg htest).symm, rfl, rfl, rfl, rfl, rfl, rfl, rfl, rfl⟩
    · simp [hflag]
    · simp [hflag, hl]
    · simp [hflag, htest]
  · let e : LinkEffect := { link := s.link.toDown, mask := Flag.linkDown.mask }
    let mode := levelMode s.sup.lowreqLevel
    have hsquelch : s.link.squelch = e := if_neg hl
    have hmode : u.sup.mode = s.sup.mode := rfl
    have hleaves : u.withLink e = u.linkLeaves e mode :=
      hu.withLink_leaving (fun hsame : LinkState.down = s.link.state => hl hsame.symm)
        (fun hup : LinkState.down = .up => nomatch hup) (modeFor_down false _)
    refine ⟨u.linkLeaves e mode, by rw [hexec, hsquelch, hleaves], rfl, ?_, ?_, ?_, fun hdown => absurd hdown hl,
      fun _ => rfl, rfl, State.linkLeaves_bend_of_unbent (levelMode_unbent _) u e, fun d => State.linkLeaves_port u e mode d,
      rfl, rfl, rfl, rfl, rfl, rfl, rfl, rfl⟩
    · rw [State.linkLeaves_flag, hflag, Flag.mask_bit]
      simp
    · rw [State.linkLeaves_flag, hflag, Flag.mask_bit]
      simp [hl]
    · rw [State.linkLeaves_flag, hflag, Flag.mask_bit, hmode]
      simp

end Sys2Proof.Machine
end

section
/-! SUPPORT. The Timebase at an output frame event (R138 to R146): the counts that the line and the flywheel leave, and the
event's Timebase under every cause. -/

namespace Sys2Proof.Machine

open Sys2Proof

@[simp] theorem Timebase.syncFrame_count (old new : BankCopy) (t : Timebase) : (t.syncFrame old new).count = t.count := by
  rw [Timebase.syncFrame]
  split <;> rfl

@[simp] theorem Timebase.syncFrame_expiryDue (old new : BankCopy) (t : Timebase) :
    (t.syncFrame old new).expiryDue = t.expiryDue := by
  rw [Timebase.syncFrame]
  split <;> rfl

@[simp] theorem Timebase.syncFrame_sinceEvent (old new : BankCopy) (t : Timebase) :
    (t.syncFrame old new).sinceEvent = t.sinceEvent := by
  rw [Timebase.syncFrame]
  split <;> rfl

@[simp] theorem Timebase.syncFrame_msTicks (old new : BankCopy) (t : Timebase) :
    (t.syncFrame old new).msTicks = t.msTicks := by
  rw [Timebase.syncFrame]
  split <;> rfl

/-- The Timebase and the bank that an event leaves: the decisions and the STATUS frames touch neither. -/
theorem State.outputFrameEvent_time (s : State) (cause : FrameCause) :
    (s.outputFrameEvent cause).bank = (s.atDecisions cause).bank
      ∧ (s.outputFrameEvent cause).time
        = (s.time.frame s.bank.active cause).syncFrame s.bank.active (s.outputFrameEvent cause).bank.active := by
  obtain ⟨-, -, -, -, -, -, -, -, -, -, -, -, htime⟩ := s.atDecisions_frame cause
  obtain ⟨-, -, -, -, -, -, -, -, -, -, hstatusTime, hstatusBank, -⟩ :=
    ((s.atDecisions cause).frameDecisions.statusAtEvent_admits s.completeComposition.mgmt.reportRequest).frame
  have hbank : (s.outputFrameEvent cause).bank = (s.atDecisions cause).bank := by
    rw [s.outputFrameEvent_eq]
    exact hstatusBank
  refine ⟨hbank, ?_⟩
  rw [hbank, s.outputFrameEvent_eq]
  exact hstatusTime.trans htime

/-- What every event does to the counts: the preload from before a commit is loaded, the period starts, the frame counter
rises by 1, and the ms clock and its prescaler stay (R138, R141, R146). -/
theorem State.outputFrameEvent_counts (s : State) (cause : FrameCause) :
    (s.outputFrameEvent cause).time.count = preload s.bank.active
      ∧ (s.outputFrameEvent cause).time.expiryDue = false
      ∧ (s.outputFrameEvent cause).time.sinceEvent = 0
      ∧ (s.outputFrameEvent cause).time.frameCounter = s.time.frameCounter + 1#16
      ∧ (s.outputFrameEvent cause).time.msClock = s.time.msClock
      ∧ (s.outputFrameEvent cause).time.msTicks = s.time.msTicks := by
  obtain ⟨-, htime⟩ := s.outputFrameEvent_time cause
  rw [htime, Timebase.syncFrame_count, Timebase.syncFrame_expiryDue, Timebase.syncFrame_sinceEvent,
    Timebase.syncFrame_frameCounter, Timebase.syncFrame_msClock, Timebase.syncFrame_msTicks]
  exact ⟨rfl, rfl, rfl, rfl, rfl, rfl⟩

/-- The expiry is taken no earlier than the guard after the last event (R138). -/
theorem Timebase.guard_le_ticksToExpiry (t : Timebase) : 2000 ≤ t.sinceEvent + t.ticksToExpiry := by
  have h : Config.guardTicks - t.sinceEvent ≤ t.ticksToExpiry := le_max_right _ _
  simp only [Config.guardTicks] at h
  omega

end Sys2Proof.Machine
end

section
/-! SUPPORT. What each command can do to the frame counter (R137, R138, R141, R146, R164): an output frame event at the guard, a
reset, or nothing; said once for every command. -/

namespace Sys2Proof.Machine

open Sys2Proof

/-! ### What most effects leave alone -/

theorem State.Admits.time {s t : State} (h : s.Admits t) : t.time = s.time := by
  obtain ⟨added, status, report, ports, rfl, -⟩ := h
  rfl

theorem State.withLink_time (s : State) (e : LinkEffect) : (s.withLink e).time = s.time := by
  rcases s.withLink_cases e with ⟨-, h⟩ | ⟨-, h⟩ <;> rw [h] <;> rfl

theorem State.completeComposition_time (s : State) : s.completeComposition.time = s.time := by
  obtain ⟨-, -, -, -, -, -, -, -, htime, -⟩ := s.completeComposition_frame
  exact htime

theorem State.startReceived_time (s : State) : s.startReceived.time = s.time := by
  rw [State.startReceived]
  split_ifs <;> rfl

theorem State.frameFails_time (s : State) (cause : FrameFault) : (s.frameFails cause).time = s.time := by
  cases cause with
  | startInFrame => rfl
  | overflow => rfl
  | failedCheck data =>
    rw [State.frameFails]
    split_ifs <;> rfl

theorem State.squelched_time (s : State) : s.squelched.time = s.time := by
  rw [s.squelched_eq]
  exact State.withLink_time _ _

theorem State.motionArrives_time (s : State) (m : MotionPayload) : (s.motionArrives m).time = s.time := by
  rw [State.motionArrives, State.testSpeedCheck]
  split_ifs <;> exact State.withLink_time _ _

theorem State.sceneFrame_time (s : State) (p : ScenePayload) :
    (if p.framed then s.sceneArrives p else s.frameDiscarded false).time = s.time := by
  split_ifs <;> rfl

theorem State.patternFrame_time (s : State) (p : PatternPayload) : (s.patternFrame p).time = s.time := by
  rw [State.patternFrame]
  split
  · split_ifs <;> rfl
  · rfl

theorem State.lowreqLineTo_time (s : State) (active : Bool) : (s.lowreqLineTo active).time = s.time := by
  rw [State.lowreqLineTo]
  split_ifs <;> rfl

theorem State.busEvent_time (s : State) (d : Side) (act : BankCopy → Bool → Port → PortEffect) :
    (s.busEvent d act).time = s.time :=
  (State.admitClaims_admits _).time

/-! Ticks pass at the end of a LOWREQ qualification and of a pulse, but no frame is counted. -/

theorem State.lowreqTaken_frameCounter (s : State) : s.lowreqTaken.time.frameCounter = s.time.frameCounter := by
  rw [State.lowreqTaken]
  split <;> rfl

theorem State.strobeEnds_frameCounter (s : State) : s.strobeEnds.time.frameCounter = s.time.frameCounter := by
  rw [State.strobeEnds]
  split_ifs <;> rfl

/-! ### MANAGE commands -/

/-- A MANAGE record leaves the frame counter alone where its command does, whatever its frame (R158). -/
theorem State.manageRecord_frameCounter {run : List Byte → State → CommandEffect}
    (hrun : ∀ params u, (run params u).state.time.frameCounter = u.time.frameCounter) (s : State) (code : Byte)
    (r : ManageRecord) : (s.manageRecord code r run).time.frameCounter = s.time.frameCounter := by
  refine State.manageRecord_keeps (P := fun u => u.time.frameCounter = s.time.frameCounter) (fun u tag hu => ?_)
    (fun _ _ hu => hu) (fun _ _ hu => hu) (fun params u hu => (hrun params u).trans hu) rfl code r
  rw [State.openFrame]
  split <;> exact hu

/-- A command without parameters leaves the frame counter alone where its effect does. -/
theorem withoutParams_frameCounter {run : State → CommandEffect}
    (hrun : ∀ u, (run u).state.time.frameCounter = u.time.frameCounter) (params : List Byte) (s : State) :
    (withoutParams run params s).state.time.frameCounter = s.time.frameCounter := by
  rw [withoutParams]
  split
  · rfl
  · exact hrun s

/-- A port control command acts on a port alone. -/
theorem portCommand_frameCounter (act : BankCopy → Port → Port) (params : List Byte) (s : State) :
    (portCommand act params s).state.time.frameCounter = s.time.frameCounter := by
  rw [portCommand]
  split
  · rfl
  · split
    · rfl
    · split_ifs <;> rfl

/-- No MANAGE command counts a frame: FRAME ALIGN loads the timer alone (R140), and a warm reset only becomes pending (R164). -/
theorem manageRun_frameCounter (code : Byte) (params : List Byte) (s : State) :
    (manageRun code params s).state.time.frameCounter = s.time.frameCounter := by
  rw [manageRun]
  generalize code.toNat = n
  split
  case h_1 =>
    rw [tableWriteCommand]
    split
    · rfl
    · split_ifs <;> rfl
  case h_2 =>
    rw [tableReadCommand]
    split
    · rfl
    · split_ifs <;> rfl
  case h_3 => exact withoutParams_frameCounter (fun _ => rfl) params s
  case h_4 => exact withoutParams_frameCounter (fun _ => rfl) params s
  case h_5 =>
    exact withoutParams_frameCounter (fun u => congrArg Timebase.frameCounter (State.admitClaims_admits _).time) params s
  case h_6 =>
    rw [flagClearCommand]
    split <;> rfl
  case h_7 => exact withoutParams_frameCounter (fun _ => rfl) params s
  case h_8 =>
    rw [frameAlignCommand]
    split
    · rfl
    · split_ifs <;> rfl
  case h_9 =>
    rw [testEnterCommand]
    split
    · rfl
    · split_ifs <;> rfl
  case h_10 =>
    refine withoutParams_frameCounter (fun u => ?_) params s
    dsimp only
    split_ifs <;> rfl
  case h_11 => exact portCommand_frameCounter _ params s
  case h_12 => exact portCommand_frameCounter _ params s
  case h_13 => exact portCommand_frameCounter _ params s
  case h_14 =>
    rw [driverPassCommand]
    split
    · rfl
    · split
      · rfl
      · split_ifs <;> rfl
  case h_15 => exact withoutParams_frameCounter (fun _ => rfl) params s
  case h_16 => rfl

/-! ### Every command -/

/-- What a command can do to the frame counter: leave it, count an output frame event that comes no earlier than the guard
after the last one, or reset it with the whole part. -/
inductive State.CountEffect (s : State) : Instr → State → Prop
  | kept {c : Instr} {t : State} (h : t.time.frameCounter = s.time.frameCounter) : CountEffect s c t
  | event {c : Instr} (n : Nat) (cause : FrameCause) (hguard : 2000 ≤ s.time.sinceEvent + n) :
      CountEffect s c ((s.elapse n).outputFrameEvent cause)
  | coldReset : CountEffect s .coldReset s.coldReset
  | warmReset {c : Instr} (hc : c = .upstreamFrameSent ∨ c = .warmResetTakesEffect)
      (hhead : ∃ f, s.mgmt.queue.head? = some f ∧ f.warmReply = true) : CountEffect s c s.warmResetNow

theorem State.running_countEffect {s : State} {c : Instr} {f : State → State} (h : s.CountEffect c (f s)) :
    s.CountEffect c (s.running f) :=
  State.running_keeps (P := s.CountEffect c) (.kept rfl) h

theorem State.running_frameCounter {s : State} {c : Instr} {f : State → State}
    (h : (f s).time.frameCounter = s.time.frameCounter) : s.CountEffect c (s.running f) :=
  State.running_countEffect (.kept h)

/-- A command that leaves the Timebase leaves the frame counter. -/
theorem State.running_time {s : State} {c : Instr} {f : State → State} (h : (f s).time = s.time) :
    s.CountEffect c (s.running f) :=
  State.running_frameCounter (congrArg Timebase.frameCounter h)

theorem State.headSent_countEffect (s : State) : s.CountEffect .upstreamFrameSent s.headSent := by
  rcases s.headSent_cases with ⟨-, h⟩ | ⟨f, rest, hq, hw, h⟩ | ⟨f, rest, -, -, h⟩ <;> rw [h]
  · exact .kept rfl
  · exact .warmReset (.inl rfl) ⟨f, by rw [hq]; rfl, hw⟩
  · exact .kept (congrArg Timebase.frameCounter (State.admitClaims_admits _).time)

theorem State.warmResetDue_countEffect (s : State) : s.CountEffect .warmResetTakesEffect s.warmResetDue := by
  rw [State.warmResetDue]
  split_ifs with h
  · exact .warmReset (.inr rfl) ((Option.any_eq_true _ _).1 h)
  · exact .kept rfl

/-- An edge is an event only at the guard (R141). -/
theorem State.syncEdgeArrives_countEffect (s : State) (edge : SyncEdge) :
    s.CountEffect (.fsyncEdge edge) (s.syncEdgeArrives edge) := by
  rw [State.syncEdgeArrives]
  split_ifs with htaken hguard
  · have hevent := State.CountEffect.event (s := s) (c := .fsyncEdge edge) 0 .acceptedEdge hguard
    rwa [s.elapse_zero] at hevent
  · exact .kept rfl
  · exact .kept rfl

/-- Every command has a next state, and one of these effects. -/
theorem exec_countEffect (c : Instr) (s : State) : ∃ t, exec c s = .next t ∧ s.CountEffect c t := by
  have hmanage : ∀ (c : Instr) (code : Byte) (r : ManageRecord),
      s.CountEffect c (s.running fun u => u.manageRecord code r (manageRun code)) :=
    fun _ code r => State.running_frameCounter (State.manageRecord_frameCounter (manageRun_frameCounter code) s code r)
  cases c with
  | coldReset => exact ⟨_, rfl, .coldReset⟩
  | resetEnds =>
    refine ⟨_, rfl, .kept ?_⟩
    split_ifs <;> rfl
  | lowreqEdge active => exact ⟨_, rfl, .kept (congrArg Timebase.frameCounter (s.lowreqLineTo_time active))⟩
  | lowreqLevelChange => exact ⟨_, rfl, State.running_frameCounter s.lowreqTaken_frameCounter⟩
  | lineSquelch => exact ⟨_, rfl, State.running_time s.squelched_time⟩
  | linkFrameError cause => exact ⟨_, rfl, State.running_time (s.frameFails_time cause)⟩
  | startSymbol => exact ⟨_, rfl, State.running_time s.startReceived_time⟩
  | motionFrame m => exact ⟨_, rfl, State.running_time (s.motionArrives_time m)⟩
  | sceneFrame p => exact ⟨_, rfl, State.running_time (s.sceneFrame_time p)⟩
  | patternFrame p => exact ⟨_, rfl, State.running_time (s.patternFrame_time p)⟩
  | lapseExpiry => exact ⟨_, rfl, State.running_time (s.withLink_time _)⟩
  | lossExpiry => exact ⟨_, rfl, State.running_time (s.withLink_time _)⟩
  | tableWrite r => exact ⟨_, rfl, hmanage _ 0x01#8 r⟩
  | tableRead r => exact ⟨_, rfl, hmanage _ 0x02#8 r⟩
  | commit r => exact ⟨_, rfl, hmanage _ 0x03#8 r⟩
  | discard r => exact ⟨_, rfl, hmanage _ 0x04#8 r⟩
  | statusNow r => exact ⟨_, rfl, hmanage _ 0x05#8 r⟩
  | flagClear r => exact ⟨_, rfl, hmanage _ 0x06#8 r⟩
  | sceneClear r => exact ⟨_, rfl, hmanage _ 0x07#8 r⟩
  | frameAlign r => exact ⟨_, rfl, hmanage _ 0x08#8 r⟩
  | testEnter r => exact ⟨_, rfl, hmanage _ 0x09#8 r⟩
  | testExit r => exact ⟨_, rfl, hmanage _ 0x0A#8 r⟩
  | portHalt r => exact ⟨_, rfl, hmanage _ 0x0B#8 r⟩
  | portStop r => exact ⟨_, rfl, hmanage _ 0x0C#8 r⟩
  | portResume r => exact ⟨_, rfl, hmanage _ 0x0D#8 r⟩
  | driverPass r => exact ⟨_, rfl, hmanage _ 0x0E#8 r⟩
  | warmReset r => exact ⟨_, rfl, hmanage _ 0x0F#8 r⟩
  | unknownCommand code r =>
    exact ⟨_, rfl, State.running_frameCounter (State.manageRecord_frameCounter (fun _ _ => rfl) s code r)⟩
  | upstreamFrameSent => exact ⟨_, rfl, State.running_countEffect s.headSent_countEffect⟩
  | queueClaimEntry => exact ⟨_, rfl, State.running_time s.admitClaims_admits.time⟩
  | warmResetTakesEffect => exact ⟨_, rfl, State.running_countEffect s.warmResetDue_countEffect⟩
  | frameTimerExpiry =>
    exact ⟨_, rfl, State.running_countEffect (.event _ _ s.time.guard_le_ticksToExpiry)⟩
  | fsyncEdge edge => exact ⟨_, rfl, State.running_countEffect (s.syncEdgeArrives_countEffect edge)⟩
  | strobeEnd => exact ⟨_, rfl, State.running_frameCounter s.strobeEnds_frameCounter⟩
  | msClockTick => exact ⟨_, rfl, State.running_frameCounter rfl⟩
  | compositionComplete => exact ⟨_, rfl, State.running_time s.completeComposition_time⟩
  | segmentWriteAck a => exact ⟨_, rfl, State.running_time (s.busEvent_time _ _)⟩
  | registerAck a => exact ⟨_, rfl, State.running_time (s.busEvent_time _ _)⟩
  | nak a => exact ⟨_, rfl, State.running_time (s.busEvent_time _ _)⟩
  | replyTimeout d => exact ⟨_, rfl, State.running_time (s.busEvent_time _ _)⟩

/-! ### Every step -/

/-- A step of a part whose frame counter changes is a command with its effect: the queue's front, or a timed event on an empty
queue. -/
theorem step_countEffect {s t : State} (hst : step s = .next t) :
    t.time.frameCounter = s.time.frameCounter
      ∨ ∃ (c : Instr) (u : State), (s.pending.head? = some c ∨ s.dueEvent = some c) ∧ u.time = s.time ∧ u.mgmt = s.mgmt
        ∧ u.CountEffect c t := by
  have hnext : ∀ {c : Instr} {u : State}, exec c u = .next t → u.CountEffect c t := fun {c u} hx => by
    obtain ⟨v, hv, he⟩ := exec_countEffect c u
    rw [hx] at hv
    cases hv
    exact he
  rw [step] at hst
  split at hst
  · rw [State.idle] at hst
    split_ifs at hst
    · cases hst
      exact .inl rfl
    · split at hst
      · rename_i c hdue
        exact .inr ⟨c, s, .inr hdue, rfl, rfl, hnext hst⟩
      · cases hst
        exact .inl rfl
  · rename_i c rest hq
    exact .inr ⟨c, s.withQueue rest, .inl (by rw [hq]; rfl), rfl, rfl, hnext hst⟩

/-- No reset is a timed event. -/
theorem State.dueEvent_ne_reset (s : State) :
    s.dueEvent ≠ some .coldReset ∧ s.dueEvent ≠ some .upstreamFrameSent ∧ s.dueEvent ≠ some .warmResetTakesEffect := by
  rw [State.dueEvent]
  split_ifs <;> exact ⟨nofun, nofun, nofun⟩

/-- Settles O58: a step that changes the frame counter is an event at the guard or a reset by its command. -/
theorem outputFramesKeepGuard : Obligations.OutputFramesKeepGuard := by
  intro s t hst hne
  obtain ⟨hcold, hsent, hwarm⟩ := s.dueEvent_ne_reset
  rcases step_countEffect hst with hkept | ⟨c, u, hc, htime, hmgmt, he⟩
  · exact absurd hkept hne
  cases he with
  | kept h => exact absurd (h.trans (congrArg Timebase.frameCounter htime)) hne
  | event n cause hguard =>
    obtain ⟨-, -, hsince, hnumber, -, hticks⟩ := (u.elapse n).outputFrameEvent_counts cause
    refine .inr ⟨hnumber.trans ?_, hsince, ?_⟩
    · rw [State.elapse_frameCounter, htime]
    · rw [hticks, State.elapse_msTicks, htime, Nat.add_sub_cancel_left, ← htime]
      exact hguard
  | coldReset => exact .inl ⟨⟨_, hc.resolve_right hcold, .inl rfl⟩, rfl, rfl, rfl, rfl, rfl, rfl, rfl⟩
  | warmReset hreset hhead =>
    have hfront : s.pending.head? = some c := hc.resolve_right fun hdue => by
      rcases hreset with rfl | rfl
      · exact hsent hdue
      · exact hwarm hdue
    rw [hmgmt] at hhead
    exact .inl ⟨⟨c, hfront, .inr ⟨hreset, hhead⟩⟩, rfl, rfl, rfl, rfl, rfl, rfl, rfl⟩

end Sys2Proof.Machine
end

section
/-! SUPPORT. The flag SYNC_MISSING at an output frame event (R142, R163): only the flywheel sets it, and no other stage of the
event; and the bank without a commit, the Link Receiver and the queue of commands, which an event leaves. -/

namespace Sys2Proof.Machine

open Sys2Proof

/-! ### Link changes and commits -/

/-- A mode decision sets TEST_ENDED at most (R117). -/
theorem State.decideMode_flag (s : State) {f : Flag} (h : f ≠ .testEnded) : s.decideMode.flag f = s.flag f := by
  have hraised : s.decideMode.flag f
      = (s.raise (Flag.testEnded.maskIf (s.sup.testActive && decide (s.link.state ≠ .up)))).flag f := rfl
  rw [hraised, State.raise_flag, Flag.maskIf_bit, decide_eq_false h.symm, Bool.and_false, Bool.or_false]

/-- A change at the Link Monitor sets the flags of its mask, and TEST_ENDED at most beside them (R117, R163). -/
theorem State.withLink_flag (s : State) (e : LinkEffect) {f : Flag} (h : f ≠ .testEnded) :
    (s.withLink e).flag f = (s.flag f || e.mask.getLsbD f.bit) := by
  have hraised : (({ s with link := e.link } : State).raise e.mask).flag f = (s.flag f || e.mask.getLsbD f.bit) :=
    State.raise_flag _ _ _
  rcases s.withLink_cases e with ⟨-, hlink⟩ | ⟨-, hlink⟩ <;> rw [hlink]
  · exact hraised
  · rw [State.decideMode_flag _ h, hraised]

/-- A lapse expiry sets LINK_LAPSED at most (R133). -/
theorem LinkMonitor.lapse_mask (b : BankCopy) (now : MsTime) (m : LinkMonitor) :
    (m.lapse b now).mask = Flag.linkLapsed.mask ∨ (m.lapse b now).mask = 0#16 := by
  rw [LinkMonitor.lapse]
  split_ifs
  · split
    · exact .inl rfl
    · exact .inr rfl
  · exact .inr rfl

/-- A loss expiry sets LINK_DOWN at most (R133). -/
theorem LinkMonitor.loss_mask (b : BankCopy) (now : MsTime) (m : LinkMonitor) :
    (m.loss b now).mask = Flag.linkDown.mask ∨ (m.loss b now).mask = 0#16 := by
  rw [LinkMonitor.loss]
  split_ifs
  · exact .inl rfl
  · exact .inr rfl

/-- A mask of one flag, or none, has no other flag's bit. -/
theorem Flag.bit_of_mask_or_zero {f g : Flag} {mask : Word} (hmask : mask = f.mask ∨ mask = 0#16) (h : f ≠ g) :
    mask.getLsbD g.bit = false := by
  rcases hmask with rfl | rfl
  · rw [Flag.mask_bit, decide_eq_false h]
  · exact BitVec.getLsbD_zero

/-- The expiries of a commit set LINK_LAPSED and LINK_DOWN at most (R135). -/
theorem LinkMonitor.commit_bit (b : BankCopy) (now : MsTime) (m : LinkMonitor) {f : Flag} (hlapse : Flag.linkLapsed ≠ f)
    (hloss : Flag.linkDown ≠ f) : (m.commit b now).mask.getLsbD f.bit = false := by
  rw [LinkMonitor.commit, BitVec.getLsbD_or, Flag.bit_of_mask_or_zero (LinkMonitor.lapse_mask _ _ _) hlapse,
    Flag.bit_of_mask_or_zero (LinkMonitor.loss_mask _ _ _) hloss, Bool.or_false]

/-! ### The stages of the event -/

/-- Composition complete sets FRAME_SUPERSEDED at most (R98). -/
theorem State.completeComposition_syncMissing (s : State) :
    s.completeComposition.flag .syncMissing = s.flag .syncMissing := by
  cases h : s.composer.inFlight with
  | none => rw [State.completeComposition_none h]
  | some x =>
    have hside : ∀ d, (s.frameToPort x d).mask.getLsbD Flag.syncMissing.bit = false := fun d => by
      rw [State.frameToPort, Port.frameArrives_mask, Flag.maskIf_bit, decide_eq_false nofun, Bool.and_false]
    rw [State.completeComposition_some h, State.raise_flag, BitVec.getLsbD_or, hside, hside, Bool.or_false, Bool.or_false]
    rfl

/-- A pending commit sets COMMIT_REJECTED or the flags of the link and of a test's end at most (R117, R135, R155). -/
theorem State.commitAtEvent_syncMissing (s : State) : s.commitAtEvent.flag .syncMissing = s.flag .syncMissing := by
  rcases s.commitAtEvent_cases with ⟨-, h⟩ | ⟨id, off, -, -, h⟩ | ⟨-, -, h⟩ <;> rw [h]
  · rw [State.raise_flag, Flag.mask_bit, decide_eq_false nofun, Bool.or_false]
    rfl
  · rw [State.withLink_flag (f := .syncMissing) _ _ nofun, LinkMonitor.commit_bit (f := .syncMissing) _ _ _ nofun nofun,
      Bool.or_false]
    rfl

/-- An event sets SYNC_MISSING exactly where it is the flywheel's (R142). -/
theorem State.outputFrameEvent_syncMissing (s : State) (cause : FrameCause) :
    (s.outputFrameEvent cause).flag .syncMissing = (s.flag .syncMissing || cause == .flywheel) := by
  obtain ⟨-, -, -, -, -, -, -, -, -, -, -, -, -, hsticky, -⟩ :=
    ((s.atDecisions cause).frameDecisions.statusAtEvent_admits s.completeComposition.mgmt.reportRequest).frame
  let begun := s.completeComposition.beginEvent cause
  have hraised : (s.atDecisions cause).frameDecisions.flag .syncMissing
      = (begun.commitAtEvent.raise (Flag.syncMissing.maskIf (cause == .flywheel))).flag .syncMissing := rfl
  have hbegun : begun.flag .syncMissing = s.completeComposition.flag .syncMissing := rfl
  rw [s.outputFrameEvent_eq, State.flag_congr hsticky]
  refine Eq.trans hraised ?_
  rw [State.raise_maskIf_flag, State.commitAtEvent_syncMissing, hbegun, State.completeComposition_syncMissing]

/-- Without a pending commit the commit stage of an event does nothing (R155). -/
theorem State.commitAtEvent_of_none {s : State} (h : s.bank.commitPending = false) (cause : FrameCause) :
    (s.completeComposition.beginEvent cause).commitAtEvent = s.completeComposition.beginEvent cause := by
  obtain ⟨-, -, -, -, -, -, -, -, -, hbank, -⟩ := s.completeComposition_frame
  have hpending : (s.completeComposition.beginEvent cause).bank.commitPending = false :=
    (congrArg TableBank.commitPending hbank).trans h
  exact if_neg (Bool.eq_false_iff.1 hpending)

/-- Without a pending commit the bank stays at an event (R155). -/
theorem State.outputFrameEvent_bank {s : State} (h : s.bank.commitPending = false) (cause : FrameCause) :
    (s.outputFrameEvent cause).bank = s.bank := by
  obtain ⟨hbank, -⟩ := s.outputFrameEvent_time cause
  obtain ⟨-, -, -, -, -, -, -, -, -, hcomposed, -⟩ := s.completeComposition_frame
  have hcommit : (s.atDecisions cause).bank = (s.completeComposition.beginEvent cause).commitAtEvent.bank := rfl
  rw [hbank, hcommit, State.commitAtEvent_of_none h]
  exact hcomposed

/-- What an event leaves of the Link Receiver and of the queue of commands. -/
theorem State.outputFrameEvent_rx (s : State) (cause : FrameCause) :
    (s.outputFrameEvent cause).rx = s.rx ∧ (s.outputFrameEvent cause).pending = s.pending := by
  obtain ⟨-, hrx, -, -, -, hpending, -⟩ := s.atDecisions_frame cause
  obtain ⟨-, hstatusRx, -, -, -, -, -, -, -, -, -, -, hstatusPending, -⟩ :=
    ((s.atDecisions cause).frameDecisions.statusAtEvent_admits s.completeComposition.mgmt.reportRequest).frame
  rw [s.outputFrameEvent_eq]
  exact ⟨hstatusRx.trans hrx, hstatusPending.trans hpending⟩

end Sys2Proof.Machine
end

section
/-! SUPPORT. FRAME_TIMER_EXPIRY in the Timebase (R138, R139, R142, R144, R146). -/

namespace Sys2Proof.Machine

open Sys2Proof

theorem syncExternal_eq_decide (b : BankCopy) : syncExternal b = decide (natField b 1 1 ≠ 0) := by
  by_cases h : natField b 1 1 = 0 <;> simp [syncExternal, idTimebase, h]

theorem expiryCause_of_external {b : BankCopy} (h : syncExternal b = true) : expiryCause b = .flywheel := if_pos h

theorem expiryCause_of_internal {b : BankCopy} (h : syncExternal b = false) : expiryCause b = .internalExpiry :=
  if_neg (Bool.eq_false_iff.1 h)

/-- Under EXTERNAL sync the line stays where no commit changes the source (R143). -/
theorem Timebase.syncFrame_external {b : BankCopy} (h : syncExternal b = true) (t : Timebase) : t.syncFrame b b = t := by
  simp only [Timebase.syncFrame, h]

/-- Under INTERNAL sync the event begins a strobe (R144). -/
theorem Timebase.syncFrame_internal {b : BankCopy} (h : syncExternal b = false) (t : Timebase) :
    t.syncFrame b b = t.beginStrobe b := by
  simp only [Timebase.syncFrame, h]

/-- Settles O29: the counts that every event leaves, and the flywheel and the strobe by the sync source. -/
theorem timerExpiryInTimebase : Obligations.TimerExpiryInTimebase := by
  intro s hr ticks external
  have hexternal : syncExternal s.bank.active = external := syncExternal_eq_decide _
  let e : State := s.elapse ticks
  let cause := expiryCause s.bank.active
  have hexec : exec .frameTimerExpiry s = .next (e.outputFrameEvent cause) := by
    rw [exec, execFrameTimerExpiry, State.running_normal hr]
    rfl
  obtain ⟨hcount, hdue, hsince, hnumber, hclock, hticks⟩ := e.outputFrameEvent_counts cause
  obtain ⟨hrx, hpending⟩ := e.outputFrameEvent_rx cause
  obtain ⟨-, hmotion, -, -⟩ := e.outputFrameEvent_frame cause
  have hmissing := e.outputFrameEvent_syncMissing cause
  refine ⟨e.outputFrameEvent cause, hexec, hsince, s.time.guard_le_ticksToExpiry, hcount, hdue, hnumber, hclock, hticks,
    fun hx => ?_, fun hi => ?_, fun hc => ?_, ?_, hmotion, hrx, hpending⟩
  · have hcause : cause = .flywheel := expiryCause_of_external (hexternal.trans hx)
    rw [hmissing, hcause]
    exact Bool.or_true _
  · have hcause : cause = .internalExpiry := expiryCause_of_internal (hexternal.trans hi)
    rw [hmissing, hcause]
    exact Bool.or_false _
  · obtain ⟨-, htime⟩ := e.outputFrameEvent_time cause
    rw [State.outputFrameEvent_bank (s := e) hc] at htime
    rw [htime]
    cases hx : external with
    | true =>
      have hb : syncExternal e.bank.active = true := hexternal.trans hx
      have hcause : cause = .flywheel := expiryCause_of_external hb
      have heighth : decide (8 ≤ min 8 (s.time.flywheel + 1)) = decide (7 ≤ s.time.flywheel) :=
        decide_eq_decide.2 (by omega)
      rw [Timebase.syncFrame_external hb, hcause]
      exact ⟨rfl, congrArg (s.time.syncLost || ·) heighth, fun _ => ⟨rfl, rfl⟩, nofun⟩
    | false =>
      have hb : syncExternal e.bank.active = false := hexternal.trans hx
      have hcause : cause = .internalExpiry := expiryCause_of_internal hb
      rw [Timebase.syncFrame_internal hb, hcause]
      exact ⟨rfl, (Bool.or_false _).symm, nofun, fun _ => ⟨rfl, rfl, rfl⟩⟩
  · rw [State.outputFrameEvent_table]
    rfl

end Sys2Proof.Machine
end

section
/-! SUPPORT. An empty queue, FRAME_ALIGN, STROBE_END and MS_CLOCK_TICK (R136, R138, R140, R144, R145). -/

namespace Sys2Proof.Machine

open Sys2Proof

/-- Settles O2: the branches of a step on an empty queue. -/
theorem emptyQueueLetsTimePass : Obligations.EmptyQueueLetsTimePass := by
  intro s hq
  have hidle : step s = s.idle := by rw [step, hq]
  rw [hidle, State.idle]
  refine ⟨fun hr => if_pos hr, fun c hr hdue => ?_, fun hr hdue => ?_⟩ <;> rw [if_neg (Bool.eq_false_iff.1 hr), hdue]
  · have hzero : decide (s.time.count < 1) = (s.time.count == 0) := by
      rw [beq_eq_decide]
      exact decide_eq_decide.2 Nat.lt_one_iff
    rw [← hzero]
    rfl

/-- FRAME ALIGN with its two parameter bytes, check by check (R140). -/
theorem frameAlignCommand_of_word (c1 c2 : Byte) (s : State) :
    frameAlignCommand [c1, c2] s
      = if syncExternal s.bank.active then s.answer .wrongSync
        else if preload s.bank.active < (c1 ++ c2).toNat then s.answer .badRange
        else { state := { s with time := s.time.load (c1 ++ c2).toNat }, code := .ok, data := [] } := rfl

/-- Settles O23: the checks in their order, answered in the record's MANAGE frame. -/
theorem frameAlignLoadsTimer : Obligations.FrameAlignLoadsTimer := by
  intro r s c1 c2 h hparams
  have hexec : exec (.frameAlign r) s = .next (s.manageRecord 0x08#8 r frameAlignCommand) := by
    rw [exec, execFrameAlign, State.running_normal (State.inReset_of_executes h)]
  have hinternal : natField s.bank.active 1 1 = 0 → ¬ syncExternal s.bank.active = true := fun hi => by
    rw [syncExternal_eq_decide, decide_eq_true_iff, not_not]
    exact hi
  refine ⟨fun hx => ?_, fun hi hlarge => ?_, fun hi hfits => ?_⟩ <;> rw [hexec]
  · have hx' : syncExternal (s.opened r).bank.active = true := (syncExternal_eq_decide _).trans (decide_eq_true hx)
    refine congrArg _ (State.answered_of_answer h ?_)
    rw [hparams, frameAlignCommand_of_word, if_pos hx']
  · refine congrArg _ (State.answered_of_answer h ?_)
    rw [hparams, frameAlignCommand_of_word, State.opened_bank, if_neg (hinternal hi)]
    exact if_pos hlarge
  · refine congrArg _ (State.answered_of_effect h ?_)
    rw [hparams, frameAlignCommand_of_word, State.opened_bank, if_neg (hinternal hi)]
    exact if_neg (Nat.not_lt.2 hfits)

/-- Settles O31: the end of a pulse, the end that finds none, and the step of the ms clock. -/
theorem strobeEndAndMsTick : Obligations.StrobeEndAndMsTick := by
  have hstrobe : ∀ s : State, s.inReset = false → exec .strobeEnd s = .next s.strobeEnds := fun s hr => by
    rw [exec, execStrobeEnd, State.running_normal hr]
  refine ⟨fun s hr hidle => ?_, fun s hr hpulse => ?_, fun s hr => ?_⟩
  · rw [hstrobe s hr, State.strobeEnds, if_neg (Bool.eq_false_iff.1 hidle)]
  · let e := s.elapse s.time.strobeLeft
    have hends : s.strobeEnds = { e with time := e.time.endStrobe } := if_pos hpulse
    exact ⟨{ e with time := e.time.endStrobe }, by rw [hstrobe s hr, hends], rfl, rfl, rfl, rfl⟩
  · refine ⟨s.msClockTicks, by rw [exec, execMsClockTick, State.running_normal hr], ?_, rfl, rfl⟩
    have hticks : s.time.msTicks + (1000 - s.time.msTicks) - 1000 = s.time.msTicks - 1000 := by omega
    rw [← hticks]
    rfl

end Sys2Proof.Machine
end

section
/-! SUPPORT. One output frame event under two Timebases (R3, R141, R142, R162): the stages of the event do the same in every
block where the ms clock and the frame counter agree, and the STATUS frames take the same places of the queue. -/

namespace Sys2Proof.Machine

open Sys2Proof

/-! ### What passing ticks may change -/

/-- The state with another Timebase and another qualification of a LOWREQ level, the parts that ticks change (R113, R138). -/
def State.retimed (s : State) (time : Timebase) (held : Option Nat) : State :=
  { s with time := time, sup := { s.sup with lowreqHeld := held } }

theorem State.elapse_eq_retimed (s : State) (n : Nat) :
    s.elapse n = s.retimed (s.time.elapse n) (s.sup.lowreqHeld.map (· + n)) := rfl

section Retimed

variable (s : State) (time : Timebase) (held : Option Nat)

theorem State.retimed_self : s.retimed s.time s.sup.lowreqHeld = s := rfl

theorem State.completeComposition_retimed :
    (s.retimed time held).completeComposition = s.completeComposition.retimed time held := by
  cases h : s.composer.inFlight with
  | none => rw [State.completeComposition_none h, State.completeComposition_none (s := s.retimed time held) h]
  | some x =>
    rw [State.completeComposition_some h, State.completeComposition_some (s := s.retimed time held) h]
    rfl

theorem State.enterMode_retimed (mode : BeamMode) :
    (s.retimed time held).enterMode mode = (s.enterMode mode).retimed time held := by
  have hclear : ∀ leaves : Bool,
      (if leaves = true then ({ s.sup with lowreqHeld := held } : Supervisor).clearTest else { s.sup with lowreqHeld := held })
        = { (if leaves = true then s.sup.clearTest else s.sup) with lowreqHeld := held } := fun leaves => by
    cases leaves <;> rfl
  exact congrArg (fun u : Supervisor => { (s.enterMode mode).retimed time held with sup := { u with mode := mode } })
    (hclear _)

/-- The mode looks at the LOWREQ level, not at its qualification (R111). -/
theorem State.decideMode_retimed : (s.retimed time held).decideMode = s.decideMode.retimed time held := by
  let ends := s.sup.testActive && decide (s.link.state ≠ .up)
  let u : State := { s.raise (Flag.testEnded.maskIf ends) with
    sup := { s.sup with testActive := s.sup.testActive && !ends } }
  exact u.enterMode_retimed time held (modeFor u.link.state u.sup.testActive u.sup.lowreqLevel)

theorem State.withLink_retimed (e : LinkEffect) :
    (s.retimed time held).withLink e = (s.withLink e).retimed time held := by
  by_cases h : e.link.state = s.link.state
  · rw [State.withLink, State.withLink, if_pos h]
    exact if_pos h
  · have hdecided := State.decideMode_retimed (({ s with link := e.link } : State).raise e.mask) time held
    rw [State.withLink, State.withLink, if_neg h, ← hdecided]
    exact if_neg h

/-- A commit looks at the ms clock alone (R135, R155). -/
theorem State.commitAtEvent_retimed (hclock : time.msClock = s.time.msClock) :
    (s.retimed time held).commitAtEvent = s.commitAtEvent.retimed time held := by
  have hnow : (s.retimed time held).time.msClock = s.time.msClock := hclock
  rw [State.commitAtEvent, State.commitAtEvent, hnow]
  by_cases hp : s.bank.commitPending = true
  · rw [if_pos hp]
    refine (if_pos hp).trans ?_
    by_cases hv : s.bank.passes = true
    · dsimp only
      rw [if_pos hv, ← State.withLink_retimed]
      exact if_pos hv
    · dsimp only
      rw [if_neg hv]
      exact if_neg hv
  · rw [if_neg hp]
    exact if_neg hp

theorem Supervisor.advance_lowreqHeld (b : BankCopy) (u : Supervisor) (held : Option Nat) :
    ({ u with lowreqHeld := held } : Supervisor).advance b = { u.advance b with lowreqHeld := held } := by
  simp only [Supervisor.advance]
  split
  · split_ifs <;> rfl
  · rfl

/-- The decisions look at the ms clock and the frame counter (R3, R63, R114). -/
theorem State.frameDecisions_retimed (hclock : time.msClock = s.time.msClock)
    (hnumber : time.frameCounter = s.time.frameCounter) :
    (s.retimed time held).frameDecisions = s.frameDecisions.retimed time held := by
  have hnow : (s.retimed time held).time.msClock = s.time.msClock := hclock
  have hcounter : (s.retimed time held).time.frameCounter = s.time.frameCounter := hnumber
  have hstale : (s.retimed time held).staleAtEvent = s.staleAtEvent := by
    rw [State.staleAtEvent, hnow]
    rfl
  have hfunction : (s.retimed time held).functionAtEvent = s.functionAtEvent := by
    rw [State.functionAtEvent, hstale]
    rfl
  have hinputs : (s.retimed time held).inputsAtEvent = s.inputsAtEvent := by
    rw [State.inputsAtEvent, hfunction, hnow, hcounter]
    rfl
  have hsup : (if s.sup.mode = .test then ({ s.sup with lowreqHeld := held } : Supervisor).advance s.bank.active
        else { s.sup with lowreqHeld := held })
      = { (if s.sup.mode = .test then s.sup.advance s.bank.active else s.sup) with lowreqHeld := held } := by
    split_ifs
    · exact Supervisor.advance_lowreqHeld _ _ _
    · rfl
  rw [State.frameDecisions, hstale, hfunction, hinputs, hnow]
  exact congrArg
    (fun u : Supervisor => { s.frameDecisions.retimed time held with sup := { u with sceneStale := s.staleAtEvent } }) hsup

end Retimed

/-! ### The same places in the queue (R161, R162) -/

/-- The reserved slot is that of the MANAGE frame being executed (R158). -/
theorem Management.reserved_of_manage {m n : Management} (h : m.manage = n.manage) : m.reserved = n.reserved := by
  rw [Management.reserved, Management.reserved, h]

/-- `t` agrees with `s` in what the entry of claims and of the periodic STATUS looks at: the bytes of queued frames, the flags
and the blocks that a STATUS reports aside. -/
structure State.SamePlaces (s t : State) : Prop where
  ports : t.ports = s.ports
  length : t.mgmt.queue.length = s.mgmt.queue.length
  manage : t.mgmt.manage = s.mgmt.manage
  statusClaim : t.mgmt.statusClaim = s.mgmt.statusClaim
  reportClaim : t.mgmt.reportClaim = s.mgmt.reportClaim
  active : t.bank.active = s.bank.active
  number : t.time.frameCounter = s.time.frameCounter

namespace State.SamePlaces

variable {s t : State} (h : s.SamePlaces t)
include h

theorem hasRoom : t.mgmt.hasRoom = s.mgmt.hasRoom := by
  rw [Management.hasRoom, Management.hasRoom, h.length, Management.reserved_of_manage h.manage]

/-- One more frame in each queue. -/
theorem length_push (f g : UpFrame) : (t.mgmt.push f).queue.length = (s.mgmt.push g).queue.length := by
  simp only [Management.push, List.length_append, List.length_cons, List.length_nil, h.length]

theorem admitPass (d : Side) : (s.admitPass d).SamePlaces (t.admitPass d) := by
  rw [State.admitPass, State.admitPass, h.ports, h.hasRoom]
  split
  · split_ifs
    · exact ⟨rfl, h.length_push _ _, h.manage, h.statusClaim, h.reportClaim, h.active, h.number⟩
    · exact h
  · exact h

theorem admitStatusNow : s.admitStatusNow.SamePlaces t.admitStatusNow := by
  rw [State.admitStatusNow, State.admitStatusNow, h.statusClaim, h.hasRoom]
  split_ifs
  · exact ⟨h.ports, h.length_push _ _, h.manage, rfl, h.reportClaim, h.active, h.number⟩
  · exact h

theorem admitReportNow : s.admitReportNow.SamePlaces t.admitReportNow := by
  rw [State.admitReportNow, State.admitReportNow, h.reportClaim, h.hasRoom]
  split_ifs
  · exact ⟨h.ports, h.length_push _ _, h.manage, h.statusClaim, rfl, h.active, h.number⟩
  · exact h

theorem periodicStatus : s.periodicStatus.SamePlaces t.periodicStatus := by
  rw [State.periodicStatus, State.periodicStatus, h.active, h.number, h.hasRoom]
  split_ifs
  · exact ⟨h.ports, h.length_push _ _, h.manage, h.statusClaim, h.reportClaim, h.active, h.number⟩
  · exact h

theorem statusAtEvent (requested : Bool) : (s.statusAtEvent requested).SamePlaces (t.statusAtEvent requested) := by
  have hclaimed : State.SamePlaces
      { s with mgmt := { s.mgmt with reportClaim := s.mgmt.reportClaim || requested } }
      { t with mgmt := { t.mgmt with reportClaim := t.mgmt.reportClaim || requested } } :=
    ⟨h.ports, h.length, h.manage, h.statusClaim, congrArg (· || requested) h.reportClaim, h.active, h.number⟩
  exact ((((hclaimed.admitPass .left).admitPass .right).admitStatusNow).admitReportNow).periodicStatus

end State.SamePlaces

/-! ### The whole event -/

/-- The work of the blocks at an output frame event, whatever its cause: composition complete, the pending commit and the
decisions, under the Timebase of an accepted edge and before the line, SYNC_MISSING and the STATUS frames. -/
def State.eventWork (s : State) : State :=
  (s.completeComposition.beginEvent .acceptedEdge).commitAtEvent.frameDecisions

/-- An event under any Timebase with the same ms clock and frame counter, and of any cause, does that work; the flywheel adds
SYNC_MISSING to it (R142). -/
theorem State.outputFrameEvent_retimed (s : State) {time : Timebase} (hclock : time.msClock = s.time.msClock)
    (hnumber : time.frameCounter = s.time.frameCounter) (held : Option Nat) (cause : FrameCause) :
    ∃ after : Timebase, after.frameCounter = s.time.frameCounter + 1#16
      ∧ (s.retimed time held).outputFrameEvent cause
        = ((s.eventWork.retimed after held).raise (Flag.syncMissing.maskIf (cause == .flywheel))).statusAtEvent
            s.completeComposition.mgmt.reportRequest := by
  let begun := s.completeComposition.beginEvent .acceptedEdge
  have hbegun : begun.time = s.completeComposition.time.frame s.completeComposition.bank.active .acceptedEdge := rfl
  have hcommit : begun.commitAtEvent.time = begun.time := by
    obtain ⟨-, -, -, -, -, -, -, htime, -⟩ := begun.commitAtEvent_frame
    exact htime
  let begins := time.frame s.completeComposition.bank.active cause
  have hcommitted : ((s.retimed time held).completeComposition.beginEvent cause).commitAtEvent
      = begun.commitAtEvent.retimed begins held := by
    rw [State.completeComposition_retimed, ← State.commitAtEvent_retimed]
    · rfl
    · rw [hbegun, s.completeComposition_time]
      exact hclock
  let after := begins.syncFrame s.completeComposition.bank.active begun.commitAtEvent.bank.active
  have hafter : after.frameCounter = s.time.frameCounter + 1#16 :=
    (Timebase.syncFrame_frameCounter _ _ _).trans (congrArg (· + 1#16) hnumber)
  have hdecided : (begun.commitAtEvent.retimed after held).frameDecisions = s.eventWork.retimed after held := by
    refine State.frameDecisions_retimed _ _ _ ?_ ?_ <;> rw [hcommit, hbegun, s.completeComposition_time]
    · exact (Timebase.syncFrame_msClock _ _ _).trans hclock
    · exact hafter
  refine ⟨after, hafter, ?_⟩
  rw [← hdecided, State.outputFrameEvent, hcommitted, State.completeComposition_retimed]
  rfl

end Sys2Proof.Machine
end

section
/-! SUPPORT. The STATUS frames of an event under the claim law (R161, R162): which enter, and what they report. -/

namespace Sys2Proof.Machine

open Sys2Proof

/-! ### The claim law through an event -/

theorem Port.resume_pass (b : BankCopy) (p : Port) : (p.resume b).pass = p.pass := by
  rw [Port.resume]
  split
  · split_ifs <;> rfl
  · split_ifs
    · split
      · rename_i next hnext
        obtain ⟨f, it, -, -, rfl⟩ := Port.nextItem_some hnext
        rfl
      · rfl
    · rfl
  · rfl

/-- A change at the Link Monitor leaves the pass-through slots: a port that resumes as a test ends keeps its own (R106). -/
theorem State.withLink_pass (s : State) (e : LinkEffect) (d : Side) :
    ((s.withLink e).ports.get d).pass = (s.ports.get d).pass := by
  let u : State := ({ s with link := e.link } : State).raise e.mask
  rcases s.withLink_cases e with ⟨-, h⟩ | ⟨-, h⟩ <;> rw [h]
  · rfl
  · rcases u.decideMode_ports with hports | hports <;> rw [hports]
    · rfl
    · rw [Sided.get_of]
      exact Port.resume_pass _ _

/-- A commit leaves the pass-through slots (R107). -/
theorem State.commitAtEvent_pass (s : State) (d : Side) :
    (s.commitAtEvent.ports.get d).pass = (s.ports.get d).pass := by
  rcases s.commitAtEvent_cases with ⟨-, h⟩ | ⟨id, off, -, -, h⟩ | ⟨-, -, h⟩ <;> rw [h]
  · rfl
  · rw [State.withLink_pass, Sided.get_of]
    rfl

/-- The claim law looks at the places of the queue, the claims and the pass-through slots alone (R161). -/
theorem State.claimLaw_of_same {s t : State} (h : s.claimLaw = true) (hqueue : t.mgmt.queue = s.mgmt.queue)
    (hmanage : t.mgmt.manage = s.mgmt.manage) (hreport : t.mgmt.reportClaim = s.mgmt.reportClaim)
    (hstatus : t.mgmt.statusClaim = s.mgmt.statusClaim) (hpass : ∀ d, (t.ports.get d).pass = (s.ports.get d).pass) :
    t.claimLaw = true := by
  have hreserved : t.mgmt.reserved = s.mgmt.reserved := Management.reserved_of_manage hmanage
  have hleft : t.ports.left.pass = s.ports.left.pass := hpass .left
  have hright : t.ports.right.pass = s.ports.right.pass := hpass .right
  rw [← h, State.claimLaw, State.claimLaw, Management.hasRoom, Management.hasRoom, State.claimWaits, State.claimWaits,
    hqueue, hreserved, hleft, hright, hstatus, hreport]

/-- The work of an event without a composition in flight keeps the queue and the claims (R155). -/
theorem State.eventWork_claims {s : State} (hf : s.composer.inFlight = none) :
    s.eventWork.mgmt.queue = s.mgmt.queue ∧ s.eventWork.mgmt.manage = s.mgmt.manage
      ∧ (s.claimLaw = true → s.eventWork.claimLaw = true) := by
  let begun := s.beginEvent .acceptedEdge
  have hwork : s.eventWork = begun.commitAtEvent.frameDecisions := by
    rw [State.eventWork, State.completeComposition_none hf]
  obtain ⟨-, -, -, -, -, -, -, -, -, hqueue, hmanage, hreport, hstatus, -⟩ := begun.commitAtEvent_frame
  rw [hwork]
  exact ⟨hqueue, hmanage, fun h => State.claimLaw_of_same h hqueue hmanage hreport hstatus begun.commitAtEvent_pass⟩

/-! ### The frames that enter (R162) -/

/-- The periodic STATUS enters at the end of the queue where it is due and a slot is free (R162). -/
theorem State.periodicStatus_queue (s : State) :
    s.periodicStatus.mgmt.queue
      = s.mgmt.queue
        ++ if (statusPeriod s.bank.active ≠ 0 ∧ s.time.frameCounter.toNat % statusPeriod s.bank.active = 0)
            ∧ s.mgmt.hasRoom = true then [.status (s.statusReport .periodic)] else [] := by
  simp only [State.periodicStatus, ← and_assoc]
  split_ifs
  · rfl
  · exact (List.append_nil _).symm

/-- Under the claim law a report request made at an event is the only claim that can enter: no other waits beside a free slot
(R161). -/
theorem State.admitClaims_requested {s : State} (h : s.claimLaw = true) (requested : Bool) :
    let claimed : State := { s with mgmt := { s.mgmt with reportClaim := s.mgmt.reportClaim || requested } }
    claimed.admitClaims
      = if (requested && s.mgmt.hasRoom) = true then
          { claimed with
            mgmt := { claimed.mgmt.push (.status (s.statusReport .reportNow)) with reportClaim := false } }
        else claimed := by
  intro claimed
  cases hroom : s.mgmt.hasRoom with
  | false =>
    rw [Bool.and_false, if_neg Bool.false_ne_true]
    exact State.admitClaims_full (s := claimed) hroom
  | true =>
    have hwaits : s.claimWaits = false := by simpa [State.claimLaw, hroom] using h
    have hpass : ∀ d, claimed.admitPass d = claimed := fun d => State.admitPass_none (State.offer_none_of hwaits d)
    simp only [State.claimWaits, Bool.or_eq_false_iff] at hwaits
    obtain ⟨⟨-, hstatus⟩, hreport⟩ := hwaits
    have hnone : claimed.mgmt.statusClaim = false := hstatus
    have hroom' : claimed.mgmt.hasRoom = true := hroom
    have hstatusNow : claimed.admitStatusNow = claimed := by
      rw [State.admitStatusNow, hnone, Bool.false_and, if_neg Bool.false_ne_true]
    have hclaim : (claimed.mgmt.reportClaim && claimed.mgmt.hasRoom) = requested := by
      rw [hroom', Bool.and_true]
      exact (congrArg (· || requested) hreport).trans (Bool.false_or _)
    rw [State.admitClaims, hpass, hpass, hstatusNow, State.admitReportNow, hclaim, Bool.and_true]
    rfl

/-- Under the claim law an event adds the report-now STATUS where it was requested and a slot is free, and then the periodic
STATUS where it is due and a slot is left (R161, R162). -/
theorem State.statusAtEvent_queue {s : State} (h : s.claimLaw = true) (requested : Bool) :
    let used := s.mgmt.queue.length + s.mgmt.reserved
    let now := requested && decide (used < 4)
    let due := decide (statusPeriod s.bank.active ≠ 0 ∧ s.time.frameCounter.toNat % statusPeriod s.bank.active = 0)
    let periodic := due && decide (used + (if now = true then 1 else 0) < 4)
    (s.statusAtEvent requested).mgmt.queue
      = s.mgmt.queue ++ (if now = true then [.status (s.statusReport .reportNow)] else [])
        ++ (if periodic = true then [.status (s.statusReport .periodic)] else []) := by
  intro used now due periodic
  let claimed : State := { s with mgmt := { s.mgmt with reportClaim := s.mgmt.reportClaim || requested } }
  let reported : State :=
    { claimed with mgmt := { claimed.mgmt.push (.status (s.statusReport .reportNow)) with reportClaim := false } }
  have hadmitted : claimed.admitClaims = if now = true then reported else claimed := State.admitClaims_requested h requested
  have hperiodic : ∀ (u : State) (k : Nat), u.bank = s.bank → u.time = s.time →
      u.mgmt.queue.length + u.mgmt.reserved = used + k →
      (((statusPeriod u.bank.active ≠ 0 ∧ u.time.frameCounter.toNat % statusPeriod u.bank.active = 0)
          ∧ u.mgmt.hasRoom = true) ↔ (due && decide (used + k < 4)) = true) := fun u k hbank htime hused => by
    rw [State.hasRoom_iff, hused, hbank, htime, Bool.and_eq_true, decide_eq_true_iff, decide_eq_true_iff]
  have hstatus : s.statusAtEvent requested = claimed.admitClaims.periodicStatus := rfl
  rw [hstatus, hadmitted, State.periodicStatus_queue]
  cases hnow : now with
  | false =>
    simp only [periodic, hnow, Bool.false_eq_true, if_false, List.append_nil, hperiodic claimed 0 rfl rfl rfl]
    rfl
  | true =>
    have hused : reported.mgmt.queue.length + reported.mgmt.reserved = used + 1 := by
      have hlength : reported.mgmt.queue.length = s.mgmt.queue.length + 1 := List.length_append
      have hreserved : reported.mgmt.reserved = s.mgmt.reserved := rfl
      omega
    simp only [periodic, hnow, if_true, hperiodic reported 1 rfl rfl hused]
    rfl

/-- Under the claim law the STATUS frames of an event report the part as the event leaves it (R162). -/
theorem State.statusAtEvent_statusReport {s : State} (h : s.claimLaw = true) (requested : Bool) (origin : StatusOrigin) :
    (s.statusAtEvent requested).statusReport origin = s.statusReport origin := by
  obtain ⟨-, hrx, hlink, hmotion, hbend, htable, hwindows, hcomposer, -, hsup, htime, hbank, -, hsticky, -⟩ :=
    (s.statusAtEvent_admits requested).frame
  simp only [State.statusReport, State.effective, hrx, hlink, hmotion, hbend, htable, hwindows, hcomposer, hsup, htime, hbank,
    hsticky, State.statusAtEvent_ports h]

end Sys2Proof.Machine
end

section
/-! SUPPORT. FSYNC_EDGE (R138, R141 to R143, R155, R162): an edge by its outcome, and an accepted one beside the same event of the
timer. -/

namespace Sys2Proof.Machine

open Sys2Proof

/-! ### An edge by its outcome (R141) -/

theorem syncExternal_iff (b : BankCopy) : syncExternal b = true ↔ natField b 1 1 ≠ 0 := by
  rw [syncExternal_eq_decide, decide_eq_true_iff]

theorem State.syncEdgeArrives_untaken {s : State} {edge : SyncEdge}
    (h : natField s.bank.active 1 1 = 0 ∨ edge ≠ syncEdge s.bank.active) : s.syncEdgeArrives edge = s := by
  rw [State.syncEdgeArrives]
  exact if_neg fun ⟨hexternal, hedge⟩ => h.elim ((syncExternal_iff _).1 hexternal) (· hedge)

theorem State.syncEdgeArrives_taken {s : State} {edge : SyncEdge} (h : natField s.bank.active 1 1 ≠ 0)
    (hedge : edge = syncEdge s.bank.active) :
    s.syncEdgeArrives edge
      = if 2000 ≤ s.time.sinceEvent then s.outputFrameEvent .acceptedEdge else s.raise Flag.syncEarly.mask := by
  rw [State.syncEdgeArrives]
  exact if_pos ⟨(syncExternal_iff _).2 h, hedge⟩

/-! ### The Timebase under EXTERNAL sync (R141, R143) -/

/-- The event leaves the line by the source that a commit brings (R143). -/
theorem Timebase.syncFrame_line {old new : BankCopy} (h : syncExternal old = true) {t u : Timebase}
    (hactive : t.strobeActive = u.strobeActive) (hidle : t.strobeIdle = u.strobeIdle) (hdriven : t.fsyncDriven = u.fsyncDriven) :
    (t.syncFrame old new).strobeActive = (u.syncFrame old new).strobeActive
      ∧ (t.syncFrame old new).strobeIdle = (u.syncFrame old new).strobeIdle
      ∧ (t.syncFrame old new).fsyncDriven = (u.syncFrame old new).fsyncDriven := by
  cases hnew : syncExternal new <;> rw [Timebase.syncFrame, Timebase.syncFrame, h, hnew]
  · exact ⟨rfl, rfl, rfl⟩
  · exact ⟨hactive, hidle, hdriven⟩

/-- A cleared flywheel stays cleared, whatever source a commit brings (R143). -/
theorem Timebase.syncFrame_cleared {old new : BankCopy} (h : syncExternal old = true) {t : Timebase} (hfly : t.flywheel = 0)
    (hlost : t.syncLost = false) : (t.syncFrame old new).flywheel = 0 ∧ (t.syncFrame old new).syncLost = false := by
  cases hnew : syncExternal new <;> rw [Timebase.syncFrame, h, hnew]
  · exact ⟨rfl, rfl⟩
  · exact ⟨hfly, hlost⟩

/-! ### Two events with the same work -/

/-- Two records of the Management Unit with the same claims and pending work differ in the queue, the flags and the report
request at most. -/
theorem Management.eq_of_claims {m n : Management} (hreport : m.reportClaim = n.reportClaim)
    (hstatus : m.statusClaim = n.statusClaim) (hwarm : m.warmPending = n.warmPending) (hmanage : m.manage = n.manage) :
    ({ m with queue := n.queue, sticky := n.sticky, reportRequest := n.reportRequest } : Management) = n := by
  rw [hreport, hstatus, hwarm, hmanage]

/-- `u` agrees with `t` in every block but the Timebase, a LOWREQ qualification, the flags of a mask with their report request,
and what the queued STATUS frames report. -/
structure State.AgreesBut (mask : Word) (t u : State) : Prop where
  link : t.link = u.link
  bend : t.bend = u.bend
  table : t.table = u.table
  windows : t.windows = u.windows
  composer : t.composer = u.composer
  segments : t.segments = u.segments
  ports : t.ports = u.ports
  bank : t.bank = u.bank
  sup : t.sup = { u.sup with lowreqHeld := t.sup.lowreqHeld }
  flag : ∀ f : Flag, mask.getLsbD f.bit = false → t.flag f = u.flag f
  claims : { t.mgmt with queue := u.mgmt.queue, sticky := u.mgmt.sticky, reportRequest := u.mgmt.reportRequest } = u.mgmt
  length : t.mgmt.queue.length = u.mgmt.queue.length
  request : t.mgmt.reportRequest = true → u.mgmt.reportRequest = true

/-- The same work under two Timebases with one frame counter, with flags raised beside the second, and the STATUS frames of
each (R162). -/
theorem State.agreesBut_of_work (w : State) {x y : Timebase} (h : y.frameCounter = x.frameCounter) (held held' : Option Nat)
    (mask : Word) (requested : Bool) :
    State.AgreesBut mask ((w.retimed x held).statusAtEvent requested)
      (((w.retimed y held').raise mask).statusAtEvent requested) := by
  let p := w.retimed x held
  let q := (w.retimed y held').raise mask
  have hplaces : (p.statusAtEvent requested).SamePlaces (q.statusAtEvent requested) :=
    State.SamePlaces.statusAtEvent (s := p) (t := q) ⟨rfl, rfl, rfl, rfl, rfl, rfl, h⟩ requested
  obtain ⟨-, -, plink, -, pbend, ptable, pwindows, pcomposer, psegments, psup, -, pbank, -, psticky, prequest, -, pwarm⟩ :=
    (p.statusAtEvent_admits requested).frame
  obtain ⟨-, -, qlink, -, qbend, qtable, qwindows, qcomposer, qsegments, qsup, -, qbank, -, qsticky, qrequest, -, qwarm⟩ :=
    (q.statusAtEvent_admits requested).frame
  refine ⟨plink.trans qlink.symm, pbend.trans qbend.symm, ptable.trans qtable.symm, pwindows.trans qwindows.symm,
    pcomposer.trans qcomposer.symm, psegments.trans qsegments.symm, hplaces.ports.symm, pbank.trans qbank.symm, ?_,
    fun f hf => ?_,
    Management.eq_of_claims hplaces.reportClaim.symm hplaces.statusClaim.symm (pwarm.trans qwarm.symm) hplaces.manage.symm,
    hplaces.length.symm, fun hrequest => ?_⟩
  · rw [psup, qsup]
    rfl
  · have hraised : q.flag f = (p.flag f || mask.getLsbD f.bit) := State.raise_flag _ _ _
    have hp : (p.statusAtEvent requested).flag f = p.flag f := State.flag_congr psticky f
    have hq : (q.statusAtEvent requested).flag f = q.flag f := State.flag_congr qsticky f
    rw [hp, hq, hraised, hf, Bool.or_false]
  · have hraised : q.mgmt.reportRequest = (p.mgmt.reportRequest || (mask &&& reportEnable p.bank.active) != 0#16) := rfl
    rw [qrequest, hraised, ← prequest, hrequest, Bool.true_or]

/-- An accepted edge: the work of the blocks with no tick passed, and its STATUS frames (R141). -/
theorem State.acceptedEdge_eq (s : State) :
    ∃ x : Timebase, x.frameCounter = s.time.frameCounter + 1#16
      ∧ s.outputFrameEvent .acceptedEdge
        = (s.eventWork.retimed x s.sup.lowreqHeld).statusAtEvent s.completeComposition.mgmt.reportRequest := by
  obtain ⟨x, hnumber, hx⟩ := s.outputFrameEvent_retimed rfl rfl s.sup.lowreqHeld .acceptedEdge
  have hmask : Flag.syncMissing.maskIf (FrameCause.acceptedEdge == .flywheel) = 0#16 := rfl
  rw [hmask, State.raise_zero, State.retimed_self] at hx
  exact ⟨x, hnumber, hx⟩

/-- It leaves what the same event of the timer leaves, but for SYNC_MISSING and the ticks (R3, R141, R142). -/
theorem State.acceptedEdge_agrees (s : State) (n : Nat) :
    State.AgreesBut Flag.syncMissing.mask (s.outputFrameEvent .acceptedEdge) ((s.elapse n).outputFrameEvent .flywheel) := by
  obtain ⟨x, hxnumber, hx⟩ := s.acceptedEdge_eq
  obtain ⟨y, hynumber, hy⟩ :=
    s.outputFrameEvent_retimed (time := s.time.elapse n) rfl rfl (s.sup.lowreqHeld.map (· + n)) .flywheel
  have hmask : Flag.syncMissing.maskIf (FrameCause.flywheel == .flywheel) = Flag.syncMissing.mask := rfl
  rw [hmask] at hy
  rw [hx, s.elapse_eq_retimed, hy]
  exact State.agreesBut_of_work s.eventWork (hynumber.trans hxnumber.symm) _ _ _ _

/-- No tick of a LOWREQ qualification passes with an accepted edge, and its STATUS frames leave the report request (R162). -/
theorem State.acceptedEdge_keeps (s : State) :
    (s.outputFrameEvent .acceptedEdge).sup.lowreqHeld = s.sup.lowreqHeld
      ∧ (s.outputFrameEvent .acceptedEdge).mgmt.reportRequest = s.eventWork.mgmt.reportRequest := by
  obtain ⟨x, -, hx⟩ := s.acceptedEdge_eq
  obtain ⟨-, -, -, -, -, -, -, -, -, hsup, -, -, -, -, hrequest, -⟩ :=
    ((s.eventWork.retimed x s.sup.lowreqHeld).statusAtEvent_admits s.completeComposition.mgmt.reportRequest).frame
  rw [hx, hsup, hrequest]
  exact ⟨rfl, rfl⟩

/-- Without a pending commit the work of an event raises no flag, and the report request stays clear (R155, R162). -/
theorem State.eventWork_reportRequest {s : State} (h : s.bank.commitPending = false) :
    s.eventWork.mgmt.reportRequest = false := by
  rw [State.eventWork, State.commitAtEvent_of_none h]
  rfl

/-- The STATUS frames of an accepted edge without a composition in flight (R161, R162). -/
theorem State.acceptedEdge_queue {s : State} (hf : s.composer.inFlight = none) (h : s.claimLaw = true) :
    let t := s.outputFrameEvent .acceptedEdge
    let used := s.mgmt.queue.length + s.mgmt.reserved
    let now := s.mgmt.reportRequest && decide (used < 4)
    let due := decide (statusPeriod t.bank.active ≠ 0
      ∧ (s.time.frameCounter + 1#16).toNat % statusPeriod t.bank.active = 0)
    let periodic := due && decide (used + (if now = true then 1 else 0) < 4)
    t.mgmt.queue = s.mgmt.queue ++ (if now = true then [.status (t.statusReport .reportNow)] else [])
      ++ (if periodic = true then [.status (t.statusReport .periodic)] else []) := by
  obtain ⟨x, hnumber, hedge⟩ := s.acceptedEdge_eq
  rw [State.completeComposition_none hf] at hedge
  obtain ⟨hqueue, hmanage, hclaims⟩ := State.eventWork_claims hf
  let p : State := s.eventWork.retimed x s.sup.lowreqHeld
  have hp : p.claimLaw = true := hclaims h
  obtain ⟨-, -, -, -, -, -, -, -, -, -, -, hbank, -⟩ := (p.statusAtEvent_admits s.mgmt.reportRequest).frame
  have hpqueue : p.mgmt.queue = s.mgmt.queue := hqueue
  have hreserved : p.mgmt.reserved = s.mgmt.reserved := Management.reserved_of_manage hmanage
  have hpnumber : p.time.frameCounter = s.time.frameCounter + 1#16 := hnumber
  have hentered := State.statusAtEvent_queue hp s.mgmt.reportRequest
  rw [hpqueue, hreserved, hpnumber] at hentered
  intro t
  have ht : t = p.statusAtEvent s.mgmt.reportRequest := hedge
  rw [ht, State.statusAtEvent_statusReport hp, State.statusAtEvent_statusReport hp, hbank]
  exact hentered

/-- Settles O30: an edge by its outcome; an accepted one by the Timebase of every event, and by its agreement with the same event
of the timer. -/
theorem edgesPaceExternalSync : Obligations.EdgesPaceExternalSync := by
  intro edge s hr taken
  have hexec : exec (.fsyncEdge edge) s = .next (s.syncEdgeArrives edge) := by
    rw [exec, execFsyncEdge, State.running_normal hr]
  rw [hexec]
  refine ⟨fun hnot => congrArg _ (State.syncEdgeArrives_untaken hnot), fun hexternal hedge hearly => ?_,
    fun hexternal hedge hguard => ?_⟩ <;>
    rw [State.syncEdgeArrives_taken hexternal hedge]
  · rw [if_neg (Nat.not_le.2 hearly)]
  · rw [if_pos hguard]
    have hsync : syncExternal s.bank.active = true := (syncExternal_iff _).2 hexternal
    let t := s.outputFrameEvent .acceptedEdge
    let e := s.elapse s.time.ticksToExpiry
    let u := e.outputFrameEvent .flywheel
    have hexpiry : exec .frameTimerExpiry s = .next u := by
      rw [exec, execFrameTimerExpiry, State.running_normal hr, State.timerExpiry, expiryCause_of_external hsync]
    have hagrees : State.AgreesBut Flag.syncMissing.mask t u := s.acceptedEdge_agrees _
    obtain ⟨hheld, hrequest⟩ := s.acceptedEdge_keeps
    obtain ⟨hcount, -, hsince, hcounter, hclock, hticks⟩ := s.outputFrameEvent_counts .acceptedEdge
    obtain ⟨-, htime⟩ := s.outputFrameEvent_time .acceptedEdge
    obtain ⟨-, hutime⟩ := e.outputFrameEvent_time .flywheel
    rw [← hagrees.bank] at hutime
    obtain ⟨hfly, hlost⟩ := Timebase.syncFrame_cleared (new := t.bank.active)
      (t := s.time.frame s.bank.active .acceptedEdge) hsync rfl rfl
    obtain ⟨hactive, hidle, hdriven⟩ := Timebase.syncFrame_line (new := t.bank.active)
      (t := s.time.frame s.bank.active .acceptedEdge) (u := e.time.frame s.bank.active .flywheel) hsync rfl rfl rfl
    rw [← htime] at hfly hlost hactive hidle hdriven
    obtain ⟨hreset, hmotion, -⟩ := s.outputFrameEvent_frame .acceptedEdge
    obtain ⟨hrx, hpending⟩ := s.outputFrameEvent_rx .acceptedEdge
    refine ⟨t, u, rfl, hexpiry, hcount, hsince, hfly, hlost, hcounter, hclock, hticks, ?_, ?_, hmotion, hrx, hpending,
      hreset.trans hr, hagrees.link, hagrees.bend, hagrees.table, hagrees.windows, hagrees.composer, hagrees.segments,
      hagrees.ports, hagrees.bank, ?_, ?_, ?_, ?_, fun f hf => hagrees.flag f ?_, hagrees.claims, hagrees.length,
      hagrees.request, fun hc => hrequest.trans (State.eventWork_reportRequest hc), State.acceptedEdge_queue⟩
    · exact (s.outputFrameEvent_syncMissing .acceptedEdge).trans (Bool.or_false _)
    · exact (congrArg TrackTable.tracks (s.outputFrameEvent_table .acceptedEdge)).trans rfl
    · rw [← hheld]
      exact hagrees.sup
    · exact hactive.trans (congrArg Timebase.strobeActive hutime).symm
    · exact hidle.trans (congrArg Timebase.strobeIdle hutime).symm
    · exact hdriven.trans (congrArg Timebase.fsyncDriven hutime).symm
    · rw [Flag.mask_bit, decide_eq_false hf.symm]

end Sys2Proof.Machine
end

section
/-! SUPPORT. What each command can do to the Table Bank (R147, R148, R153 to R155): work on STAGED and on the pending commit, the
decision of an output frame event, or the defaults of a cold reset; said once for every command. -/

namespace Sys2Proof.Machine

open Sys2Proof

/-! ### Work on the bank outside an event (R148, R153) -/

/-- The bank `k'` follows from `k` with ACTIVE as it was and with both copies canonical where they were. -/
structure TableBank.Managed (k k' : TableBank) : Prop where
  active : k'.active = k.active
  canonical : k.canonical = true → k'.canonical = true

theorem TableBank.canonical_iff (k : TableBank) :
    k.canonical = true ↔ bankWf k.active = true ∧ bankWf k.staged = true := by
  rw [TableBank.canonical, Bool.and_eq_true]

/-- A bank with the same two copies. -/
theorem TableBank.Managed.of_copies {k k' : TableBank} (active : k'.active = k.active := by rfl)
    (staged : k'.staged = k.staged := by rfl) : k.Managed k' :=
  ⟨active, fun h => by rwa [TableBank.canonical, active, staged]⟩

theorem TableBank.Managed.of_eq {k k' : TableBank} (h : k' = k) : k.Managed k' := h ▸ .of_copies

theorem TableBank.Managed.trans {k l m : TableBank} (h : k.Managed l) (h' : l.Managed m) : k.Managed m :=
  ⟨h'.active.trans h.active, fun hk => h'.canonical (h.canonical hk)⟩

/-- Words stored into STAGED (R148). -/
theorem TableBank.Managed.written (k : TableBank) (id off : Nat) (ws : List Word) :
    k.Managed { k with staged := bankWriteAll k.staged id off ws } := by
  refine ⟨rfl, fun h => ?_⟩
  obtain ⟨hactive, hstaged⟩ := k.canonical_iff.1 h
  exact (TableBank.canonical_iff _).2 ⟨hactive, bankWriteAll_wf hstaged id off ws⟩

/-- A commit set pending (R153). -/
theorem TableBank.Managed.committing (k : TableBank) : k.Managed { k with commitPending := true } := .of_copies

/-- ACTIVE copied into STAGED (R153). -/
theorem TableBank.Managed.discarded (k : TableBank) : k.Managed k.discard := by
  refine ⟨rfl, fun h => ?_⟩
  obtain ⟨hactive, -⟩ := k.canonical_iff.1 h
  exact (TableBank.canonical_iff _).2 ⟨hactive, hactive⟩

/-! ### Effects that leave the bank -/

theorem State.Admits.bank {s t : State} (h : s.Admits t) : t.bank = s.bank := by
  obtain ⟨added, status, report, ports, rfl, -⟩ := h
  rfl

theorem State.withLink_bank (s : State) (e : LinkEffect) : (s.withLink e).bank = s.bank := by
  rcases s.withLink_cases e with ⟨-, h⟩ | ⟨-, h⟩ <;> rw [h] <;> rfl

theorem State.endTest_bank (s : State) (flagged : Bool) : (s.endTest flagged).bank = s.bank := rfl

theorem State.startReceived_bank (s : State) : s.startReceived.bank = s.bank := by
  rw [State.startReceived]
  split_ifs <;> rfl

theorem State.frameFails_bank (s : State) (cause : FrameFault) : (s.frameFails cause).bank = s.bank := by
  cases cause with
  | startInFrame => rfl
  | overflow => rfl
  | failedCheck data =>
    rw [State.frameFails]
    split_ifs <;> rfl

theorem State.squelched_bank (s : State) : s.squelched.bank = s.bank := by
  rw [s.squelched_eq]
  exact State.withLink_bank _ _

theorem State.motionArrives_bank (s : State) (m : MotionPayload) : (s.motionArrives m).bank = s.bank := by
  rw [State.motionArrives, State.testSpeedCheck]
  split_ifs
  · exact (State.endTest_bank _ _).trans (State.withLink_bank _ _)
  · exact State.withLink_bank _ _

theorem State.sceneFrame_bank (s : State) (p : ScenePayload) :
    (if p.framed then s.sceneArrives p else s.frameDiscarded false).bank = s.bank := by
  split_ifs <;> rfl

theorem State.patternFrame_bank (s : State) (p : PatternPayload) : (s.patternFrame p).bank = s.bank := by
  rw [State.patternFrame]
  split
  · split_ifs <;> rfl
  · rfl

theorem State.lowreqTaken_bank (s : State) : s.lowreqTaken.bank = s.bank := by
  rw [State.lowreqTaken]
  split <;> rfl

theorem State.lowreqLineTo_bank (s : State) (active : Bool) : (s.lowreqLineTo active).bank = s.bank := by
  rw [State.lowreqLineTo]
  split_ifs <;> rfl

theorem State.strobeEnds_bank (s : State) : s.strobeEnds.bank = s.bank := by
  rw [State.strobeEnds]
  split_ifs <;> rfl

theorem State.completeComposition_bank (s : State) : s.completeComposition.bank = s.bank := by
  obtain ⟨-, -, -, -, -, -, -, -, -, hbank, -⟩ := s.completeComposition_frame
  exact hbank

theorem State.busEvent_bank (s : State) (d : Side) (act : BankCopy → Bool → Port → PortEffect) :
    (s.busEvent d act).bank = s.bank :=
  (State.admitClaims_admits _).bank

/-! ### MANAGE commands (R148, R153, R159) -/

/-- A MANAGE record does to the bank what its command does, whatever its frame (R158). -/
theorem State.manageRecord_managed {run : List Byte → State → CommandEffect}
    (hrun : ∀ params u, TableBank.Managed u.bank (run params u).state.bank) (s : State) (code : Byte) (r : ManageRecord) :
    s.bank.Managed (s.manageRecord code r run).bank := by
  refine State.manageRecord_keeps (P := fun u => s.bank.Managed u.bank) (fun u tag hu => ?_) (fun _ _ hu => hu)
    (fun _ _ hu => hu) (fun params u hu => hu.trans (hrun params u)) (.of_eq rfl) code r
  rw [State.openFrame]
  split <;> exact hu

/-- A command without parameters does to the bank what its effect does. -/
theorem withoutParams_managed {run : State → CommandEffect} (hrun : ∀ u : State, u.bank.Managed (run u).state.bank)
    (params : List Byte) (s : State) : s.bank.Managed (withoutParams run params s).state.bank := by
  rw [withoutParams]
  split
  · exact .of_eq rfl
  · exact hrun s

/-- A port control command acts on a port alone. -/
theorem portCommand_bank (act : BankCopy → Port → Port) (params : List Byte) (s : State) :
    (portCommand act params s).state.bank = s.bank := by
  rw [portCommand]
  split
  · rfl
  · split
    · rfl
    · split_ifs <;> rfl

theorem tableWriteCommand_managed (params : List Byte) (s : State) :
    s.bank.Managed (tableWriteCommand params s).state.bank := by
  rw [tableWriteCommand]
  split
  · exact .of_eq rfl
  · split_ifs
    · exact .of_eq rfl
    · exact .of_eq rfl
    · exact .written _ _ _ _

/-- No MANAGE command changes ACTIVE: TABLE WRITE, COMMIT and DISCARD work on STAGED and the pending commit, and the others
leave the bank (R148, R153). -/
theorem manageRun_managed (code : Byte) (params : List Byte) (s : State) :
    s.bank.Managed (manageRun code params s).state.bank := by
  rw [manageRun]
  generalize code.toNat = n
  split
  case h_1 => exact tableWriteCommand_managed params s
  case h_2 =>
    rw [tableReadCommand]
    split
    · exact .of_eq rfl
    · split_ifs <;> exact .of_eq rfl
  case h_3 => exact withoutParams_managed (fun u => .committing u.bank) params s
  case h_4 => exact withoutParams_managed (fun u => .discarded u.bank) params s
  case h_5 => exact withoutParams_managed (fun _ => .of_eq (State.admitClaims_admits _).bank) params s
  case h_6 =>
    rw [flagClearCommand]
    split <;> exact .of_eq rfl
  case h_7 => exact withoutParams_managed (fun _ => .of_eq rfl) params s
  case h_8 =>
    rw [frameAlignCommand]
    split
    · exact .of_eq rfl
    · split_ifs <;> exact .of_eq rfl
  case h_9 =>
    rw [testEnterCommand]
    split
    · exact .of_eq rfl
    · split_ifs <;> exact .of_eq rfl
  case h_10 =>
    refine withoutParams_managed (fun u => ?_) params s
    dsimp only
    split_ifs <;> exact .of_eq rfl
  case h_11 => exact .of_eq (portCommand_bank _ params s)
  case h_12 => exact .of_eq (portCommand_bank _ params s)
  case h_13 => exact .of_eq (portCommand_bank _ params s)
  case h_14 =>
    rw [driverPassCommand]
    split
    · exact .of_eq rfl
    · split
      · exact .of_eq rfl
      · split_ifs <;> exact .of_eq rfl
  case h_15 => exact withoutParams_managed (fun _ => .of_eq rfl) params s
  case h_16 => exact .of_eq rfl

/-! ### Commits (R154, R155) -/

theorem TableBank.decide_of_valid {k : TableBank} (h : bankFault k.staged = none) :
    k.decide = { k with
      active := k.staged, commitPending := false, outcome := .applied, commitCount := k.commitCount + 1#16 } := by
  simp only [TableBank.decide, h]

theorem TableBank.decide_of_fault {k : TableBank} {id off : Nat} (h : bankFault k.staged = some (id, off)) :
    k.decide = { k with commitPending := false, outcome := .rejected id off } := by
  simp only [TableBank.decide, h]

/-- A decision leaves ACTIVE, or applies a STAGED that passes validation. -/
theorem TableBank.decide_active (k : TableBank) :
    k.decide.active = k.active ∨ (bankFault k.staged = none ∧ k.decide.active = k.staged) := by
  cases h : bankFault k.staged with
  | none => exact .inr ⟨rfl, by rw [TableBank.decide_of_valid h]⟩
  | some x => exact .inl (by rw [TableBank.decide_of_fault (id := x.1) (off := x.2) h])

/-- A decision settles the pending commit and leaves STAGED. -/
theorem TableBank.decide_frame (k : TableBank) : k.decide.commitPending = false ∧ k.decide.staged = k.staged := by
  rw [TableBank.decide]
  split <;> exact ⟨rfl, rfl⟩

/-- The commit stage of an event decides a pending commit; nothing else of the event touches the bank. -/
theorem State.commitAtEvent_bank (s : State) :
    s.commitAtEvent.bank = if s.bank.commitPending = true then s.bank.decide else s.bank := by
  rw [State.commitAtEvent]
  dsimp only
  split_ifs
  · exact State.withLink_bank _ _
  · rfl
  · rfl

theorem State.outputFrameEvent_decides (s : State) (cause : FrameCause) :
    (s.outputFrameEvent cause).bank = if s.bank.commitPending = true then s.bank.decide else s.bank := by
  obtain ⟨hbank, -⟩ := s.outputFrameEvent_time cause
  have hcommit : (s.atDecisions cause).bank = (s.completeComposition.beginEvent cause).commitAtEvent.bank := rfl
  have hbegun : (s.completeComposition.beginEvent cause).bank = s.bank := s.completeComposition_bank
  rw [hbank, hcommit, State.commitAtEvent_bank, hbegun]

/-! ### Every command and every step -/

/-- What a command can do to the bank: leave ACTIVE, with both copies canonical where they were; decide a pending commit at an
output frame event; or set the defaults of a cold reset. -/
inductive State.BankEffect (s : State) : State → Prop
  | managed {t : State} (h : s.bank.Managed t.bank) : BankEffect s t
  | event (n : Nat) (cause : FrameCause) : BankEffect s ((s.elapse n).outputFrameEvent cause)
  | coldReset : BankEffect s s.coldReset

theorem State.BankEffect.kept {s t : State} (h : t.bank = s.bank) : s.BankEffect t := .managed (.of_eq h)

theorem State.running_bankEffect {s : State} {f : State → State} (h : s.BankEffect (f s)) : s.BankEffect (s.running f) :=
  State.running_keeps (P := s.BankEffect) (.kept rfl) h

theorem State.running_bank {s : State} {f : State → State} (h : (f s).bank = s.bank) : s.BankEffect (s.running f) :=
  State.running_bankEffect (.kept h)

/-- A warm reset keeps both copies (R147). -/
theorem State.warmResetNow_bankEffect (s : State) : s.BankEffect s.warmResetNow := .managed .of_copies

theorem State.headSent_bankEffect (s : State) : s.BankEffect s.headSent := by
  rcases s.headSent_cases with ⟨-, h⟩ | ⟨f, rest, -, -, h⟩ | ⟨f, rest, -, -, h⟩ <;> rw [h]
  · exact .kept rfl
  · exact s.warmResetNow_bankEffect
  · exact .kept (State.admitClaims_admits _).bank

theorem State.warmResetDue_bankEffect (s : State) : s.BankEffect s.warmResetDue := by
  rw [State.warmResetDue]
  split_ifs
  · exact s.warmResetNow_bankEffect
  · exact .kept rfl

theorem State.syncEdgeArrives_bankEffect (s : State) (edge : SyncEdge) : s.BankEffect (s.syncEdgeArrives edge) := by
  rw [State.syncEdgeArrives]
  split_ifs
  · have hevent := State.BankEffect.event (s := s) 0 .acceptedEdge
    rwa [s.elapse_zero] at hevent
  · exact .kept rfl
  · exact .kept rfl

/-- Every command has a next state, and one of these effects. -/
theorem exec_bankEffect (c : Instr) (s : State) : ∃ t, exec c s = .next t ∧ s.BankEffect t := by
  have hmanage : ∀ (code : Byte) (r : ManageRecord), s.BankEffect (s.running fun u => u.manageRecord code r (manageRun code)) :=
    fun code r => State.running_bankEffect (.managed (State.manageRecord_managed (manageRun_managed code) s code r))
  cases c with
  | coldReset => exact ⟨_, rfl, .coldReset⟩
  | resetEnds =>
    refine ⟨_, rfl, .kept ?_⟩
    split_ifs <;> rfl
  | lowreqEdge active => exact ⟨_, rfl, .kept (s.lowreqLineTo_bank active)⟩
  | lowreqLevelChange => exact ⟨_, rfl, State.running_bank s.lowreqTaken_bank⟩
  | lineSquelch => exact ⟨_, rfl, State.running_bank s.squelched_bank⟩
  | linkFrameError cause => exact ⟨_, rfl, State.running_bank (s.frameFails_bank cause)⟩
  | startSymbol => exact ⟨_, rfl, State.running_bank s.startReceived_bank⟩
  | motionFrame m => exact ⟨_, rfl, State.running_bank (s.motionArrives_bank m)⟩
  | sceneFrame p => exact ⟨_, rfl, State.running_bank (s.sceneFrame_bank p)⟩
  | patternFrame p => exact ⟨_, rfl, State.running_bank (s.patternFrame_bank p)⟩
  | lapseExpiry => exact ⟨_, rfl, State.running_bank (s.withLink_bank _)⟩
  | lossExpiry => exact ⟨_, rfl, State.running_bank (s.withLink_bank _)⟩
  | tableWrite r => exact ⟨_, rfl, hmanage 0x01#8 r⟩
  | tableRead r => exact ⟨_, rfl, hmanage 0x02#8 r⟩
  | commit r => exact ⟨_, rfl, hmanage 0x03#8 r⟩
  | discard r => exact ⟨_, rfl, hmanage 0x04#8 r⟩
  | statusNow r => exact ⟨_, rfl, hmanage 0x05#8 r⟩
  | flagClear r => exact ⟨_, rfl, hmanage 0x06#8 r⟩
  | sceneClear r => exact ⟨_, rfl, hmanage 0x07#8 r⟩
  | frameAlign r => exact ⟨_, rfl, hmanage 0x08#8 r⟩
  | testEnter r => exact ⟨_, rfl, hmanage 0x09#8 r⟩
  | testExit r => exact ⟨_, rfl, hmanage 0x0A#8 r⟩
  | portHalt r => exact ⟨_, rfl, hmanage 0x0B#8 r⟩
  | portStop r => exact ⟨_, rfl, hmanage 0x0C#8 r⟩
  | portResume r => exact ⟨_, rfl, hmanage 0x0D#8 r⟩
  | driverPass r => exact ⟨_, rfl, hmanage 0x0E#8 r⟩
  | warmReset r => exact ⟨_, rfl, hmanage 0x0F#8 r⟩
  | unknownCommand code r =>
    exact ⟨_, rfl, State.running_bankEffect (.managed (State.manageRecord_managed (fun _ _ => .of_eq rfl) s code r))⟩
  | upstreamFrameSent => exact ⟨_, rfl, State.running_bankEffect s.headSent_bankEffect⟩
  | queueClaimEntry => exact ⟨_, rfl, State.running_bank s.admitClaims_admits.bank⟩
  | warmResetTakesEffect => exact ⟨_, rfl, State.running_bankEffect s.warmResetDue_bankEffect⟩
  | frameTimerExpiry => exact ⟨_, rfl, State.running_bankEffect (.event _ _)⟩
  | fsyncEdge edge => exact ⟨_, rfl, State.running_bankEffect (s.syncEdgeArrives_bankEffect edge)⟩
  | strobeEnd => exact ⟨_, rfl, State.running_bank s.strobeEnds_bank⟩
  | msClockTick => exact ⟨_, rfl, State.running_bank rfl⟩
  | compositionComplete => exact ⟨_, rfl, State.running_bank s.completeComposition_bank⟩
  | segmentWriteAck a => exact ⟨_, rfl, State.running_bank (s.busEvent_bank _ _)⟩
  | registerAck a => exact ⟨_, rfl, State.running_bank (s.busEvent_bank _ _)⟩
  | nak a => exact ⟨_, rfl, State.running_bank (s.busEvent_bank _ _)⟩
  | replyTimeout d => exact ⟨_, rfl, State.running_bank (s.busEvent_bank _ _)⟩

/-- A step does to the bank and the frame counter what one command does, or nothing. -/
theorem step_bankEffect {s t : State} (hst : step s = .next t) :
    ∃ u : State, u.bank = s.bank ∧ u.time = s.time ∧ u.BankEffect t := by
  have hnext : ∀ {c : Instr} {u : State}, exec c u = .next t → u.BankEffect t := fun {c u} hx => by
    obtain ⟨v, hv, he⟩ := exec_bankEffect c u
    rw [hx] at hv
    cases hv
    exact he
  rw [step] at hst
  split at hst
  · refine ⟨s, rfl, rfl, ?_⟩
    rw [State.idle] at hst
    split_ifs at hst
    · cases hst
      exact .kept rfl
    · split at hst
      · exact hnext hst
      · cases hst
        exact .kept rfl
  · rename_i rest _
    exact ⟨s.withQueue rest, rfl, rfl, hnext hst⟩

/-- A decision keeps both copies canonical, and ACTIVE valid (R155). -/
theorem TableBank.decide_laws {k : TableBank} (hwf : k.canonical = true) (hvalid : k.activeValid = true) :
    k.decide.canonical = true ∧ k.decide.activeValid = true := by
  obtain ⟨hactive, hstaged⟩ := k.canonical_iff.1 hwf
  obtain ⟨-, hkept⟩ := k.decide_frame
  rw [TableBank.canonical_iff, TableBank.activeValid, hkept]
  rcases k.decide_active with h | ⟨hpasses, h⟩ <;> rw [h]
  · exact ⟨⟨hactive, hstaged⟩, hvalid⟩
  · exact ⟨⟨hstaged, hstaged⟩, Option.isNone_iff_eq_none.2 hpasses⟩

/-- Settles O53: ACTIVE changes to a validated STAGED or to the defaults, which pass validation. -/
theorem stepKeepsBankLaws : Obligations.StepKeepsBankLaws := by
  intro s t hwf hvalid hst
  obtain ⟨u, hbank, -, he⟩ := step_bankEffect hst
  rw [← hbank] at hwf hvalid
  cases he with
  | managed h => exact ⟨h.canonical hwf, by rw [TableBank.activeValid, h.active]; exact hvalid⟩
  | event n cause =>
    rw [State.outputFrameEvent_decides, State.elapse_bank]
    split_ifs
    · exact TableBank.decide_laws hwf hvalid
    · exact ⟨hwf, hvalid⟩
  | coldReset => exact ⟨rfl, Option.isNone_iff_eq_none.2 bankFault_defaults⟩

/-- Settles O59: of the effects on the bank, only a decision and a cold reset change ACTIVE. -/
theorem activeChangesByCommitAlone : Obligations.ActiveChangesByCommitAlone := by
  intro s t hst hne
  obtain ⟨u, hbank, htime, he⟩ := step_bankEffect hst
  rw [← hbank] at hne ⊢
  rw [← htime]
  cases he with
  | managed h => exact absurd h.active hne
  | event n cause =>
    obtain ⟨-, -, -, hnumber, -⟩ := (u.elapse n).outputFrameEvent_counts cause
    have hdecides := (u.elapse n).outputFrameEvent_decides cause
    rw [State.elapse_bank] at hdecides
    rw [hdecides] at hne ⊢
    split_ifs at hne ⊢ with hpending
    · obtain ⟨hpasses, hactive⟩ := u.bank.decide_active.resolve_left hne
      exact .inr ⟨hpending, hpasses, hactive, u.bank.decide_frame.1, hnumber⟩
    · exact absurd rfl hne
  | coldReset => exact .inl ⟨rfl, rfl⟩

end Sys2Proof.Machine
end

section
/-! SUPPORT. TABLE_WRITE, TABLE_READ, COMMIT and DISCARD as executed commands (R148, R153, R159, R160). -/

namespace Sys2Proof.Machine

open Sys2Proof

/-! ### The commands with their parameters (R128, R159) -/

/-- No table has more than 256 words (R147). -/
theorem tableSize_le (id : Nat) : tableSize id ≤ 256 := by
  rw [tableSize.eq_def]
  split
  case h_10 => split_ifs <;> omega
  all_goals decide

theorem rangeOk_iff {id off count : Nat} :
    rangeOk id off count = true ↔ 1 ≤ count ∧ count ≤ 48 ∧ off + count ≤ tableSize id := by
  simp only [rangeOk, Bool.and_eq_true, decide_eq_true_eq, and_assoc]

/-- The words that a run of stores of a table reads back, as bytes (R160). -/
theorem wordsBytes_bankReadAll (b : BankCopy) (id off n : Nat) :
    wordsBytes (bankReadAll b id off n) = (List.range n).flatMap fun i => wordBytes (bankRead b id (off + i)) := by
  induction n generalizing off with
  | zero => rfl
  | succ n ih =>
    rw [bankReadAll, wordsBytes, ih, List.range_succ_eq_map, List.flatMap_cons, List.flatMap_map]
    simp only [Nat.succ_eq_add_one, Nat.add_right_comm off 1, Nat.add_assoc off, Nat.add_zero]

/-- TABLE WRITE with its parameters, check by check. -/
theorem tableWriteCommand_of_words {id o1 o2 n : Byte} {ws : List Word} (hlen : ws.length = n.toNat) (s : State) :
    tableWriteCommand (id :: o1 :: o2 :: n :: wordsBytes ws) s
      = if tableSize id.toNat = 0 then s.answer .badTable
        else if !rangeOk id.toNat (o1 ++ o2).toNat n.toNat then s.answer .badRange
        else
          { state := { s with
              bank := { s.bank with staged := bankWriteAll s.bank.staged id.toNat (o1 ++ o2).toNat ws } }
            code := .ok, data := [] } := by
  have hargs : writeArgs (id :: o1 :: o2 :: n :: wordsBytes ws)
      = some { table := id.toNat, offset := (o1 ++ o2).toNat, words := ws } := by
    simp only [writeArgs, parseWords_bytes, hlen, if_true]
    rfl
  rw [tableWriteCommand, hargs, ← hlen]

/-- TABLE READ with its five parameter bytes, check by check. -/
theorem tableReadCommand_of_bytes (id c o1 o2 n : Byte) (s : State) :
    tableReadCommand [id, c, o1, o2, n] s
      = if tableSize id.toNat = 0 then s.answer .badTable
        else if decide (1 < c.toNat) || !rangeOk id.toNat (o1 ++ o2).toNat n.toNat then s.answer .badRange
        else
          { state := s, code := .ok
            data := wordsBytes (bankReadAll (if c.toNat = 0 then s.bank.active else s.bank.staged) id.toNat
              (o1 ++ o2).toNat n.toNat) } := rfl

/-- The range is refused where it is empty, too long, or leaves the table (R159). -/
theorem rangeOk_eq_false {id off count : Nat} (h : count = 0 ∨ 48 < count ∨ tableSize id < off + count) :
    rangeOk id off count = false := by
  rw [Bool.eq_false_iff, Ne, rangeOk_iff]
  omega

/-- Settles O18: both commands check by check; the words stored are read back from STAGED where they were written. -/
theorem tableWriteAndRead : Obligations.TableWriteAndRead := by
  refine ⟨fun r s id o1 o2 n ws h hwf hparams hlen => ?_, fun r s id c o1 o2 n h hparams => ?_⟩
  · have hexec : exec (.tableWrite r) s = .next (s.manageRecord 0x01#8 r tableWriteCommand) := by
      rw [exec, execTableWrite, State.running_normal (State.inReset_of_executes h)]
    rw [hexec]
    have hrun := tableWriteCommand_of_words (id := id) (o1 := o1) (o2 := o2) hlen (s.opened r)
    rw [← hparams] at hrun
    refine ⟨fun hno => ?_, fun htable hrange => ?_, fun htable hlow hhigh hfits => ?_⟩
    · exact congrArg _ (State.answered_of_answer h (hrun.trans (if_pos hno)))
    · rw [if_neg htable, rangeOk_eq_false hrange] at hrun
      exact congrArg _ (State.answered_of_answer h hrun)
    · rw [if_neg htable, rangeOk_iff.2 ⟨hlow, hhigh, hfits⟩] at hrun
      refine ⟨bankWriteAll s.bank.staged id.toNat (o1 ++ o2).toNat ws, congrArg _ (State.answered_of_effect h hrun),
        fun table off hoff => ?_⟩
      rw [← hlen] at hfits ⊢
      exact bankRead_writeAll hwf _ _ ws (hfits.trans (tableSize_le _)) table off hoff
  · have hexec : exec (.tableRead r) s = .next (s.manageRecord 0x02#8 r tableReadCommand) := by
      rw [exec, execTableRead, State.running_normal (State.inReset_of_executes h)]
    rw [hexec]
    have hrun := tableReadCommand_of_bytes id c o1 o2 n (s.opened r)
    rw [← hparams] at hrun
    refine ⟨fun hno => ?_, fun htable hrefused => ?_, fun htable hcopy hlow hhigh hfits => ?_⟩
    · exact congrArg _ (State.answered_of_answer h (hrun.trans (if_pos hno)))
    · have hbad : (decide (1 < c.toNat) || !rangeOk id.toNat (o1 ++ o2).toNat n.toNat) = true := by
        rcases hrefused with hcopy | hrange
        · rw [decide_eq_true hcopy, Bool.true_or]
        · rw [rangeOk_eq_false hrange, Bool.not_false, Bool.or_true]
      rw [if_neg htable, if_pos hbad] at hrun
      exact congrArg _ (State.answered_of_answer h hrun)
    · rw [if_neg htable, rangeOk_iff.2 ⟨hlow, hhigh, hfits⟩, decide_eq_false (Nat.not_lt.2 hcopy),
        wordsBytes_bankReadAll] at hrun
      exact congrArg _ (State.answered_of_effect h hrun)

/-- Settles O19: the bank that each command leaves, answered in the record's MANAGE frame. -/
theorem commitAndDiscard : Obligations.CommitAndDiscard := by
  intro r s h hparams
  have hr := State.inReset_of_executes h
  refine ⟨?_, ?_⟩
  · rw [exec, execCommit, State.running_normal hr]
    refine congrArg _ (State.answered_of_effect h ?_)
    exact withoutParams_of_nil _ hparams _
  · rw [exec, execDiscard, State.running_normal hr]
    refine congrArg _ (State.answered_of_effect h ?_)
    exact withoutParams_of_nil _ hparams _

end Sys2Proof.Machine
end

section
/-! SUPPORT. The checks of a commit word by word (R149 to R152, R154): LINK, TIMEBASE, GEOMETRY, DRIVER_MAP, PATTERN and
FALLBACK. -/

namespace Sys2Proof.Machine

open Sys2Proof

theorem within_iff {lo hi v : Nat} : within lo hi v = true ↔ lo ≤ v ∧ v ≤ hi := by
  rw [within, Bool.and_eq_true, decide_eq_true_eq, decide_eq_true_eq]

theorem withinInt_iff {lo hi v : Int} : withinInt lo hi v = true ↔ lo ≤ v ∧ v ≤ hi := by
  rw [withinInt, Bool.and_eq_true, decide_eq_true_eq, decide_eq_true_eq]

/-! ### GEOMETRY (R150) -/

theorem wordOk_geometry (b : BankCopy) (d : Side) (off : Nat) : wordOk b (3 + sideCode d) off = geometryWordOk b d off := by
  cases d <;> rfl

theorem wordOk_rows (b : BankCopy) (d : Side) :
    wordOk b (3 + sideCode d) 0 = true ↔ 1 ≤ natField b (3 + sideCode d) 0 ∧ natField b (3 + sideCode d) 0 ≤ 4 := by
  rw [wordOk_geometry, geometryWordOk, if_pos rfl, within_iff, geometryId_eq]

theorem wordOk_columns (b : BankCopy) (d : Side) :
    wordOk b (3 + sideCode d) 1 = true ↔ 8 ≤ natField b (3 + sideCode d) 1 ∧ natField b (3 + sideCode d) 1 ≤ 32 := by
  rw [wordOk_geometry, geometryWordOk, if_neg one_ne_zero, if_pos rfl, within_iff, geometryId_eq]

theorem wordOk_columnWidth (b : BankCopy) (d : Side) :
    wordOk b (3 + sideCode d) 2 = true ↔ 50 ≤ natField b (3 + sideCode d) 2 ∧ natField b (3 + sideCode d) 2 ≤ 400 := by
  rw [wordOk_geometry, geometryWordOk, if_neg two_ne_zero, if_neg (by decide), if_pos rfl, within_iff, geometryId_eq]

/-- The left end of the span, and with it the right end, lie within 30 degrees of the axis. -/
theorem wordOk_spanLeft (b : BankCopy) (d : Side) :
    wordOk b (3 + sideCode d) 3 = true
      ↔ -3000 ≤ intField b (3 + sideCode d) 3 ∧ intField b (3 + sideCode d) 3 ≤ 3000
        ∧ intField b (3 + sideCode d) 3
          + (natField b (3 + sideCode d) 1 : Int) * (natField b (3 + sideCode d) 2 : Int) ≤ 3000 := by
  rw [wordOk_geometry, geometryWordOk, if_neg three_ne_zero, if_neg (by decide), if_neg (by decide), if_pos rfl,
    Bool.and_eq_true, withinInt_iff, decide_eq_true_eq, and_assoc, colCount, colWidth, geometryId_eq]

/-- The words 4 to 11 are the bounds of the rows, by twos; those of a row at or beyond R are not validated. -/
theorem geometryWordOk_bound {b : BankCopy} {d : Side} {off : Nat} (hlow : 4 ≤ off) (hhigh : off < 12) :
    geometryWordOk b d off
      = if rowCount b d ≤ (off - 4) / 2 then true
        else if off % 2 = 0 then
          withinInt (-500) 1000 (intField b (geometryId d) off)
            && ((off - 4) / 2 == 0 || decide (intField b (geometryId d) off ≤ rowBottom b d ((off - 4) / 2 - 1)))
        else
          withinInt (-500) 1000 (intField b (geometryId d) off)
            && decide (intField b (geometryId d) off < rowTop b d ((off - 4) / 2)) := by
  simp only [geometryWordOk]
  rw [if_neg (by omega), if_neg (by omega), if_neg (by omega), if_neg (by omega), if_pos hhigh]

theorem wordOk_boundBeyond {b : BankCopy} {d : Side} {off : Nat} (hlow : 4 ≤ off) (hhigh : off < 12)
    (hrow : natField b (3 + sideCode d) 0 ≤ (off - 4) / 2) : wordOk b (3 + sideCode d) off = true := by
  rw [wordOk_geometry, geometryWordOk_bound hlow hhigh, rowCount, geometryId_eq, if_pos hrow]

section
variable {b : BankCopy} {d : Side} {r : Nat} (hr : r < 4) (hrow : r < natField b (3 + sideCode d) 0)
include hr hrow

/-- The top of a row that exists lies in range, and no higher than the bottom of the row above it. -/
theorem wordOk_rowTop :
    wordOk b (3 + sideCode d) (4 + 2 * r) = true
      ↔ -500 ≤ intField b (3 + sideCode d) (4 + 2 * r) ∧ intField b (3 + sideCode d) (4 + 2 * r) ≤ 1000
        ∧ (0 < r → intField b (3 + sideCode d) (4 + 2 * r) ≤ intField b (3 + sideCode d) (5 + 2 * (r - 1))) := by
  have hindex : (4 + 2 * r - 4) / 2 = r := by omega
  have heven : (4 + 2 * r) % 2 = 0 := by omega
  rw [wordOk_geometry, geometryWordOk_bound (by omega) (by omega), hindex, rowCount, rowBottom, geometryId_eq,
    if_neg (Nat.not_le.2 hrow), if_pos heven]
  simp only [Bool.and_eq_true, Bool.or_eq_true, withinInt_iff, beq_iff_eq, decide_eq_true_eq, and_assoc,
    Nat.pos_iff_ne_zero, or_iff_not_imp_left, ne_eq]

/-- The bottom of a row that exists lies in range, and below its top. -/
theorem wordOk_rowBottom :
    wordOk b (3 + sideCode d) (5 + 2 * r) = true
      ↔ -500 ≤ intField b (3 + sideCode d) (5 + 2 * r) ∧ intField b (3 + sideCode d) (5 + 2 * r) ≤ 1000
        ∧ intField b (3 + sideCode d) (5 + 2 * r) < intField b (3 + sideCode d) (4 + 2 * r) := by
  have hindex : (5 + 2 * r - 4) / 2 = r := by omega
  have hodd : ¬ (5 + 2 * r) % 2 = 0 := by omega
  rw [wordOk_geometry, geometryWordOk_bound (by omega) (by omega), hindex, rowCount, rowTop, geometryId_eq,
    if_neg (Nat.not_le.2 hrow), if_neg hodd]
  simp only [Bool.and_eq_true, withinInt_iff, decide_eq_true_eq, and_assoc]

end

/-! ### DRIVER_MAP (R151) -/

/-- An entry with alias 0 is not validated. -/
theorem driverMapWordOk_unused {b : BankCopy} {k o : Nat} (ho : o < 4) (h : (mapEntry b k).chip = 0) :
    driverMapWordOk b (4 * k + o) = true := by
  have hentry : (4 * k + o) / 4 = k := by omega
  simp only [driverMapWordOk, hentry]
  exact if_pos h

/-- No used entry before an entry, on its side, has a property. -/
theorem none_earlier_iff {b : BankCopy} {k : Nat} {p : MapEntry → Bool} :
    (!(((List.range k).map (mapEntry b)).filter (fun f => f.chip != 0 && f.side == (mapEntry b k).side)).any p) = true
      ↔ ∀ j, (j < k ∧ (mapEntry b j).chip ≠ 0 ∧ (mapEntry b j).side = (mapEntry b k).side) → p (mapEntry b j) = false := by
  simp

theorem runsOverlap_eq_false {e f : MapEntry} :
    runsOverlap e f = false ↔ f.first + f.count ≤ e.first ∨ e.first + e.count ≤ f.first := by
  rw [runsOverlap, Bool.and_eq_false_iff, decide_eq_false_iff_not, decide_eq_false_iff_not, Nat.not_lt, Nat.not_lt]

section
variable {b : BankCopy} {k : Nat} (h : (mapEntry b k).chip ≠ 0)
include h

theorem driverMapWordOk_side : driverMapWordOk b (4 * k) = true ↔ (mapEntry b k).side ≤ 1 := by
  have hentry : 4 * k / 4 = k := by omega
  have hword : 4 * k % 4 = 0 := by omega
  simp only [driverMapWordOk, hentry, hword, if_neg h, within_iff, Nat.zero_le, true_and]

theorem driverMapWordOk_chip : driverMapWordOk b (4 * k + 1) = true
    ↔ (mapEntry b k).chip ≤ 4 ∧ ∀ j, (j < k ∧ (mapEntry b j).chip ≠ 0 ∧ (mapEntry b j).side = (mapEntry b k).side) →
        (mapEntry b j).chip ≠ (mapEntry b k).chip := by
  have hentry : (4 * k + 1) / 4 = k := by omega
  have hword : (4 * k + 1) % 4 = 1 := by omega
  have hused : 1 ≤ (mapEntry b k).chip := Nat.one_le_iff_ne_zero.2 h
  simp only [driverMapWordOk, hentry, hword, if_neg h, Bool.and_eq_true, within_iff, none_earlier_iff, beq_eq_false_iff_ne,
    hused, true_and]

theorem driverMapWordOk_address : driverMapWordOk b (4 * k + 2) = true
    ↔ 1 ≤ (mapEntry b k).address ∧ (mapEntry b k).address ≤ 127
      ∧ ∀ j, (j < k ∧ (mapEntry b j).chip ≠ 0 ∧ (mapEntry b j).side = (mapEntry b k).side) →
        (mapEntry b j).address ≠ (mapEntry b k).address := by
  have hentry : (4 * k + 2) / 4 = k := by omega
  have hword : (4 * k + 2) % 4 = 2 := by omega
  simp only [driverMapWordOk, hentry, hword, if_neg h, Bool.and_eq_true, within_iff, none_earlier_iff, beq_eq_false_iff_ne,
    and_assoc]

theorem driverMapWordOk_run {d : Side} (hside : (mapEntry b k).side = sideCode d) : driverMapWordOk b (4 * k + 3) = true
    ↔ 1 ≤ (mapEntry b k).count ∧ (mapEntry b k).count ≤ 32
      ∧ (mapEntry b k).first + (mapEntry b k).count ≤ segmentCount b d
      ∧ ∀ j, (j < k ∧ (mapEntry b j).chip ≠ 0 ∧ (mapEntry b j).side = (mapEntry b k).side) →
        (mapEntry b j).first + (mapEntry b j).count ≤ (mapEntry b k).first
          ∨ (mapEntry b k).first + (mapEntry b k).count ≤ (mapEntry b j).first := by
  have hentry : (4 * k + 3) / 4 = k := by omega
  have hword : (4 * k + 3) % 4 = 3 := by omega
  have hd : entrySide (mapEntry b k) = d := by
    rw [entrySide, hside]
    cases d <;> rfl
  simp only [driverMapWordOk, hentry, hword, if_neg h, hd, Bool.and_eq_true, within_iff, none_earlier_iff, decide_eq_true_eq,
    runsOverlap_eq_false, and_assoc]

end

/-! ### PATTERN and FALLBACK (R152) -/

theorem wordOk_pattern {id : Nat} (hlow : 16 ≤ id) (hhigh : id ≤ 32) (b : BankCopy) (off : Nat) :
    wordOk b id off = patternWordOk b id off := by
  interval_cases id <;> rfl

/-- A position's word is a level, and 0 where the lamp has no segment. -/
theorem patternWordOk_iff {b : BankCopy} {id n : Nat} (d : Side) (hn : n < 128) :
    patternWordOk b id (128 * sideCode d + n) = true
      ↔ natField b id (128 * sideCode d + n) ≤ 1023
        ∧ (segmentCount b d ≤ n → natField b id (128 * sideCode d + n) = 0) := by
  have hside : patternSide (128 * sideCode d + n) = d := by
    cases d
    · exact if_pos (by simp only [sideCode]; omega)
    · exact if_neg (by simp only [sideCode]; omega)
  have hposition : (128 * sideCode d + n) % 128 = n := by omega
  rw [patternWordOk, hside, hposition, Bool.and_eq_true, Bool.or_eq_true, within_iff, decide_eq_true_eq, beq_iff_eq,
    ← Nat.not_le, ← imp_iff_not_or]
  simp only [Nat.zero_le, true_and, Config.maxLevel]

/-! ### LINK and TIMEBASE (R149) -/

theorem wordOk_linkNominal (b : BankCopy) : wordOk b 0 0 = true ↔ 5 ≤ natField b 0 0 ∧ natField b 0 0 ≤ 200 := within_iff

theorem wordOk_linkTolerance (b : BankCopy) :
    wordOk b 0 1 = true ↔ natField b 0 1 ≤ 50 ∧ natField b 0 1 < natField b 0 0 := by
  have hword : wordOk b 0 1 = (within 0 50 (natField b 0 1) && decide (natField b 0 1 < natField b 0 0)) := rfl
  rw [hword, Bool.and_eq_true, within_iff, decide_eq_true_eq, and_iff_right (Nat.zero_le _)]

/-- The loss timeout exceeds every lapse threshold of the band. -/
theorem wordOk_linkLossTimeout (b : BankCopy) :
    wordOk b 0 5 = true ↔ 100 ≤ natField b 0 5 ∧ natField b 0 5 ≤ 2000
      ∧ (natField b 0 0 + natField b 0 1) * natField b 0 4 < natField b 0 5 := by
  have hword : wordOk b 0 5 = (within 100 2000 (natField b 0 5)
    && decide ((natField b 0 0 + natField b 0 1) * natField b 0 4 < natField b 0 5)) := rfl
  rw [hword, Bool.and_eq_true, within_iff, decide_eq_true_eq, and_assoc]

theorem wordOk_preload (b : BankCopy) : wordOk b 1 0 = true ↔ 1999 ≤ natField b 1 0 ∧ natField b 1 0 ≤ 49999 := within_iff

end Sys2Proof.Machine
end

section
/-! SUPPORT. A pending commit at an output frame event (R37, R107, R111, R133, R135, R139, R143, R155): the Link Monitor's expiries at
the commit, what the commit leaves block by block, and what the rest of the event adds. -/

namespace Sys2Proof.Machine

open Sys2Proof

/-! ### The Link Monitor at a commit (R133, R135) -/

section
variable (b : BankCopy) (now : MsTime) (m : LinkMonitor)

/-- The gap exceeds the lapse threshold of the clamped E, and the lapse expiry has not come in this gap. -/
def LinkMonitor.lapsesAt : Bool :=
  !m.lapseTaken && decide (clampBand b m.estimate * linkMultiple b < m.gap now)

/-- The gap exceeds the loss timeout, and the loss expiry has not come in this gap. -/
def LinkMonitor.losesAt : Bool := !m.lossTaken && decide (linkLossTimeout b < m.gap now)

/-- The Monitor with E clamped and the lapse expiry taken where it is due. -/
def LinkMonitor.lapsedAt : LinkMonitor :=
  match m.state, m.lapsesAt b now with
  | .up, true => { m with estimate := clampBand b m.estimate, state := .lapsed, lapseTaken := true }
  | .settling, true => { m with estimate := clampBand b m.estimate, stable := 0, lapseTaken := true }
  | _, _ => { m with estimate := clampBand b m.estimate }

/-- After the lapse, the loss expiry is due too, and the link goes to DOWN. -/
def LinkMonitor.downAt : Bool :=
  ((m.lapsedAt b now).state == .settling || (m.lapsedAt b now).state == .lapsed) && m.losesAt b now

/-- The lapse expiry of a commit: where it is due the Monitor takes it, with LINK_LAPSED from UP. -/
theorem LinkMonitor.lapse_atCommit :
    LinkMonitor.lapse b now { m with estimate := clampBand b m.estimate }
      = { link := m.lapsedAt b now, mask := Flag.linkLapsed.maskIf (m.state == .up && m.lapsesAt b now) } := by
  have hdue : lapseDue b now { m with estimate := clampBand b m.estimate }
      = (decide (m.state = .settling ∨ m.state = .up) && m.lapsesAt b now) := Bool.and_assoc _ _ _
  rw [LinkMonitor.lapse, hdue, LinkMonitor.lapsedAt]
  cases hstate : m.state <;> cases m.lapsesAt b now <;> rfl

theorem LinkMonitor.lapsedAt_gap : (m.lapsedAt b now).gap now = m.gap now ∧ (m.lapsedAt b now).lossTaken = m.lossTaken := by
  rw [LinkMonitor.lapsedAt]
  split <;> exact ⟨rfl, rfl⟩

/-- The lapse leaves the link state, or takes it from UP to LAPSED. -/
theorem LinkMonitor.lapsedAt_state : (m.lapsedAt b now).state = m.state ∨ (m.lapsedAt b now).state = .lapsed := by
  rw [LinkMonitor.lapsedAt]
  split
  · exact .inr rfl
  · exact .inl rfl
  · exact .inl rfl

/-- A commit at the Link Monitor: the lapse expiry, and then the loss expiry where it is due. -/
theorem LinkMonitor.commit_eq :
    m.commit b now
      = { link := if m.downAt b now = true then
              { m.lapsedAt b now with state := .down, stable := 0, lossTaken := true }
            else m.lapsedAt b now
          mask := Flag.linkLapsed.maskIf (m.state == .up && m.lapsesAt b now) ||| Flag.linkDown.maskIf (m.downAt b now) } := by
  obtain ⟨hgap, htaken⟩ := m.lapsedAt_gap b now
  have hdue : lossDue b now (m.lapsedAt b now) = m.downAt b now := by
    rw [lossDue, hgap, htaken, LinkMonitor.downAt, LinkMonitor.losesAt, Bool.and_assoc, Bool.decide_or, beq_eq_decide,
      beq_eq_decide]
  rw [LinkMonitor.commit, LinkMonitor.lapse_atCommit]
  dsimp only
  rw [LinkMonitor.loss, hdue]
  cases m.downAt b now <;> rfl

/-- A commit takes the link to DOWN with a loss, and otherwise leaves its state or takes it to LAPSED. -/
theorem LinkMonitor.commit_state :
    (m.downAt b now = true ∧ (m.commit b now).link.state = .down)
      ∨ (m.downAt b now = false
        ∧ ((m.commit b now).link.state = m.state ∨ (m.commit b now).link.state = .lapsed)) := by
  rw [LinkMonitor.commit_eq]
  cases m.downAt b now
  · exact .inr ⟨rfl, m.lapsedAt_state b now⟩
  · exact .inl ⟨rfl, rfl⟩

/-- The mode of the state to which a commit moves the link (R111). -/
theorem LinkMonitor.commit_mode (h : (m.commit b now).link.state ≠ m.state) (testActive level : Bool) :
    modeFor (m.commit b now).link.state testActive level
      = if m.downAt b now = false then .hold else levelMode level := by
  rcases m.commit_state b now with ⟨hdown, hstate⟩ | ⟨hdown, hstate⟩
  · rw [hdown, hstate, if_neg (by decide), modeFor_down]
  · rw [hdown, hstate.resolve_left h, if_pos rfl]
    rfl

theorem LinkMonitor.commit_lapsed_bit :
    (m.commit b now).mask.getLsbD Flag.linkLapsed.bit = (m.state == .up && m.lapsesAt b now) := by
  simp [LinkMonitor.commit_eq, Flag.maskIf_bit]

theorem LinkMonitor.commit_down_bit :
    (m.commit b now).mask.getLsbD Flag.linkDown.bit = m.downAt b now := by
  simp [LinkMonitor.commit_eq, Flag.maskIf_bit]

end

/-! ### A change at the Link Monitor (R111, R112) -/

/-- The mode after a change at the Link Monitor: decided again only where the link state changes (R111). -/
theorem State.withLink_mode (s : State) (e : LinkEffect) :
    (s.withLink e).sup.mode
      = if e.link.state = s.link.state then s.sup.mode
        else modeFor e.link.state s.sup.testActive s.sup.lowreqLevel := by
  rcases s.withLink_cases e with ⟨hsame, h⟩ | ⟨hchange, h⟩ <;> rw [h]
  · rw [if_pos hsame]
    rfl
  · rw [State.decideMode_mode, if_neg hchange]
    rfl

/-- The bend is set to 0 where the change enters FALLBACK, DARK or TEST (R112). -/
theorem State.withLink_bend (s : State) (e : LinkEffect) :
    (s.withLink e).bend
      = if (s.withLink e).sup.mode ≠ s.sup.mode ∧ (s.withLink e).sup.mode.unbent = true then s.bend.straight else s.bend := by
  rcases s.withLink_cases e with ⟨-, h⟩ | ⟨-, h⟩ <;> rw [h]
  · exact (if_neg fun hentered => hentered.1 rfl).symm
  · exact State.decideMode_bend _

theorem State.withLink_chips (s : State) (e : LinkEffect) (d : Side) :
    ((s.withLink e).ports.get d).chips = (s.ports.get d).chips := by
  rcases s.withLink_cases e with ⟨-, h⟩ | ⟨-, h⟩ <;> rw [h]
  · rfl
  · exact State.decideMode_chips _ d

/-! ### The commit stage (R37, R107, R135, R155) -/

/-- STAGED in force, with the acts of the Bend Unit and of the ports, before the act of the Link Monitor. -/
def State.applied (s : State) : State :=
  { s with
    bank := s.bank.decide
    bend := s.bend.commitClamp s.bank.staged
    ports := Sided.of fun d => (s.ports.get d).commit s.bank.active s.bank.staged d }

theorem State.commitAtEvent_applied {s : State} (hp : s.bank.commitPending = true) (hv : bankFault s.bank.staged = none) :
    s.commitAtEvent = s.applied.withLink (s.link.commit s.bank.staged s.time.msClock) := by
  have hpasses : s.bank.passes = true := Option.isNone_iff_eq_none.2 hv
  have hactive : s.bank.decide.active = s.bank.staged := by rw [TableBank.decide_of_valid hv]
  rw [State.commitAtEvent, if_pos hp]
  dsimp only
  rw [if_pos hpasses, hactive]
  rfl

theorem State.commitAtEvent_rejected {s : State} {id off : Nat} (hp : s.bank.commitPending = true)
    (hf : bankFault s.bank.staged = some (id, off)) :
    s.commitAtEvent = ({ s with bank := s.bank.decide } : State).raise Flag.commitRejected.mask := by
  have hfails : ¬ s.bank.passes = true := by rw [TableBank.passes, hf]; exact Bool.false_ne_true
  rw [State.commitAtEvent, if_pos hp]
  exact if_neg hfails

/-- The record of a chip that the new driver map does not name (R107). -/
theorem ChipRecord.remap_unmapped {old new : BankCopy} {d : Side} {chip : Nat} (h : chipEntry new d chip = none)
    (r : ChipRecord) : r.remap old new d chip = if r.state = .unused then r else .fresh none := by
  simp only [ChipRecord.remap, h]

/-- The record of a chip that the new driver map names: kept where the old one gives it the same address (R107). -/
theorem ChipRecord.remap_mapped {old new : BankCopy} {d : Side} {chip : Nat} {e : MapEntry}
    (h : chipEntry new d chip = some e) (r : ChipRecord) :
    r.remap old new d chip
      = if r.address = some e.address ∧ chipEntry old d chip ≠ none then r else .fresh (some e.address) := by
  simp only [ChipRecord.remap, h, Option.isSome_iff_ne_none]

/-! ### The rest of the event -/

/-- Composition complete sets FRAME_SUPERSEDED at most (R98). -/
theorem State.completeComposition_flag (s : State) {f : Flag} (h : ∀ d, Flag.frameSuperseded d ≠ f) :
    s.completeComposition.flag f = s.flag f := by
  cases hf : s.composer.inFlight with
  | none => rw [State.completeComposition_none hf]
  | some x =>
    have hside : ∀ d, (s.frameToPort x d).mask.getLsbD f.bit = false := fun d => by
      rw [State.frameToPort, Port.frameArrives_mask, Flag.maskIf_bit, decide_eq_false (h _), Bool.and_false]
    rw [State.completeComposition_some hf, State.raise_flag, BitVec.getLsbD_or, hside, hside, Bool.or_false, Bool.or_false]
    rfl

/-- Composition complete leaves the chip records (R98). -/
theorem State.completeComposition_chips (s : State) (d : Side) :
    (s.completeComposition.ports.get d).chips = (s.ports.get d).chips := by
  cases hf : s.composer.inFlight with
  | none => rw [State.completeComposition_none hf]
  | some x =>
    rw [State.completeComposition_some hf, State.raise_ports, Sided.get_of]
    exact Port.frameArrives_chips _ _ _

/-- The state that finds the pending commit: composition is complete and the period has begun (R4, R138). -/
def State.beforeCommit (s : State) (cause : FrameCause) : State := s.completeComposition.beginEvent cause

theorem State.beforeCommit_frame (s : State) (cause : FrameCause) :
    (s.beforeCommit cause).link = s.link ∧ (s.beforeCommit cause).motion = s.motion ∧ (s.beforeCommit cause).bend = s.bend
      ∧ (s.beforeCommit cause).sup = s.sup ∧ (s.beforeCommit cause).bank = s.bank
      ∧ (s.beforeCommit cause).time.msClock = s.time.msClock := by
  obtain ⟨-, -, hlink, hmotion, hbend, -, -, hsup, htime, hbank, -⟩ := s.completeComposition_frame
  have hclock : s.completeComposition.time.msClock = s.time.msClock := congrArg Timebase.msClock htime
  exact ⟨hlink, hmotion, hbend, hsup, hbank, hclock⟩

/-- What the stages after the commit leave of it: the link, the mode, the chip records and the flags but SYNC_MISSING; and the bend
goes through the stages of the event (R28, R142, R162). -/
theorem State.outputFrameEvent_afterCommit (s : State) (cause : FrameCause) :
    (s.outputFrameEvent cause).link = (s.beforeCommit cause).commitAtEvent.link
      ∧ (s.outputFrameEvent cause).sup.mode = (s.beforeCommit cause).commitAtEvent.sup.mode
      ∧ (s.outputFrameEvent cause).bend
        = (s.beforeCommit cause).commitAtEvent.bend.frame (s.beforeCommit cause).commitAtEvent.bank.active
            (s.beforeCommit cause).commitAtEvent.sup.mode (s.beforeCommit cause).commitAtEvent.motion
      ∧ (∀ d, ((s.outputFrameEvent cause).ports.get d).chips = ((s.beforeCommit cause).commitAtEvent.ports.get d).chips)
      ∧ ∀ f, Flag.syncMissing ≠ f → (s.outputFrameEvent cause).flag f = (s.beforeCommit cause).commitAtEvent.flag f := by
  have hdecisions : s.atDecisions cause
      = { (s.beforeCommit cause).commitAtEvent.raise (Flag.syncMissing.maskIf (cause == .flywheel)) with
          time := (s.beforeCommit cause).commitAtEvent.time.syncFrame s.bank.active
            (s.beforeCommit cause).commitAtEvent.bank.active } := rfl
  rw [s.outputFrameEvent_eq, hdecisions]
  generalize (s.beforeCommit cause).commitAtEvent = committed
  let raised := committed.raise (Flag.syncMissing.maskIf (cause == .flywheel))
  let decided := ({ raised with time := raised.time.syncFrame s.bank.active raised.bank.active } : State).frameDecisions
  have hstatus := decided.statusAtEvent_admits s.completeComposition.mgmt.reportRequest
  obtain ⟨-, -, hlink, -, hbend, -, -, -, -, hsup, -, -, -, hsticky, -⟩ := hstatus.frame
  refine ⟨hlink, (congrArg Supervisor.mode hsup).trans (State.frameDecisions_mode _), hbend, hstatus.chips, fun f hf => ?_⟩
  have hkept : (decided.statusAtEvent s.completeComposition.mgmt.reportRequest).flag f = raised.flag f :=
    State.flag_congr hsticky f
  refine hkept.trans ?_
  rw [State.raise_flag, Flag.maskIf_bit, decide_eq_false hf, Bool.and_false, Bool.or_false]

/-! ### An applied commit at the event (R37, R107, R111, R135) -/

section
variable {s : State} (hp : s.bank.commitPending = true) (hv : bankFault s.bank.staged = none) (cause : FrameCause)
include hp hv

/-- The commit stage of the event: STAGED in force, and the act of the Link Monitor. -/
theorem State.beforeCommit_applied :
    (s.beforeCommit cause).commitAtEvent
      = (s.beforeCommit cause).applied.withLink (s.link.commit s.bank.staged s.time.msClock) := by
  obtain ⟨hlink, -, -, -, hbank, hclock⟩ := s.beforeCommit_frame cause
  rw [← hbank] at hp hv
  rw [State.commitAtEvent_applied hp hv, hlink, hbank, hclock]

theorem State.outputFrameEvent_applied_link :
    (s.outputFrameEvent cause).link = (s.link.commit s.bank.staged s.time.msClock).link := by
  obtain ⟨hlink, -⟩ := s.outputFrameEvent_afterCommit cause
  rw [hlink, State.beforeCommit_applied hp hv]
  exact (State.withLink_frame _ _).1

/-- The mode is decided again where the commit moves the link: HOLD after a lapse, FALLBACK or DARK after a loss (R111). -/
theorem State.outputFrameEvent_applied_mode :
    (s.outputFrameEvent cause).sup.mode
      = if (s.outputFrameEvent cause).link.state = s.link.state then s.sup.mode
        else if s.link.downAt s.bank.staged s.time.msClock = false then .hold else levelMode s.sup.lowreqLevel := by
  obtain ⟨-, hmode, -⟩ := s.outputFrameEvent_afterCommit cause
  obtain ⟨hlink, -, -, hsup, -⟩ := s.beforeCommit_frame cause
  have happlied : (s.beforeCommit cause).applied.link = s.link ∧ (s.beforeCommit cause).applied.sup = s.sup := ⟨hlink, hsup⟩
  rw [State.outputFrameEvent_applied_link hp hv, hmode, State.beforeCommit_applied hp hv, State.withLink_mode, happlied.1,
    happlied.2]
  refine if_ctx_congr Iff.rfl (fun _ => rfl) fun hmoved => ?_
  exact LinkMonitor.commit_mode _ _ _ hmoved _ _

/-- The flags of the two expiries are set beside the old ones (R133, R163). -/
theorem State.outputFrameEvent_applied_flag {f : Flag} (htest : f ≠ .testEnded) (hsync : Flag.syncMissing ≠ f)
    (hframe : ∀ d, Flag.frameSuperseded d ≠ f) :
    (s.outputFrameEvent cause).flag f
      = (s.flag f || (s.link.commit s.bank.staged s.time.msClock).mask.getLsbD f.bit) := by
  obtain ⟨-, -, -, -, hflag⟩ := s.outputFrameEvent_afterCommit cause
  have hbefore : (s.beforeCommit cause).applied.flag f = s.flag f := s.completeComposition_flag hframe
  rw [hflag f hsync, State.beforeCommit_applied hp hv, State.withLink_flag _ _ htest, hbefore]

/-- Each chip record is compared with the new driver map (R107). -/
theorem State.outputFrameEvent_applied_chips (d : Side) :
    ((s.outputFrameEvent cause).ports.get d).chips
      = remapChips s.bank.active s.bank.staged d (s.ports.get d).chips := by
  obtain ⟨-, -, -, hchips, -⟩ := s.outputFrameEvent_afterCommit cause
  obtain ⟨-, -, -, -, hbank, -⟩ := s.beforeCommit_frame cause
  have hbefore : ((s.beforeCommit cause).ports.get d).chips = (s.ports.get d).chips := s.completeComposition_chips d
  rw [hchips, State.beforeCommit_applied hp hv, State.withLink_chips, State.applied, Sided.get_of, Port.commit, hbank,
    hbefore]

/-- The bend is set to 0 on entry to FALLBACK, DARK or TEST, or clamped to the new θmax; then the stages of the event run (R28,
R37, R38). -/
theorem State.outputFrameEvent_applied_bend {mode : BeamMode} (hmode : (s.outputFrameEvent cause).sup.mode = mode) :
    (s.outputFrameEvent cause).bend
      = (if mode ≠ s.sup.mode ∧ mode.unbent = true then s.bend.straight else s.bend.commitClamp s.bank.staged).frame
          s.bank.staged mode s.motion := by
  obtain ⟨-, hafter, hbend, -⟩ := s.outputFrameEvent_afterCommit cause
  obtain ⟨-, hmotion, hbefore, hsup, hbank, -⟩ := s.beforeCommit_frame cause
  have hcommitted : (s.beforeCommit cause).commitAtEvent.sup.mode = mode := hafter.symm.trans hmode
  have hactive : (s.beforeCommit cause).commitAtEvent.bank.active = s.bank.staged := by
    rw [State.commitAtEvent_bank, hbank, if_pos hp, TableBank.decide_of_valid hv]
  have hmotion' : (s.beforeCommit cause).commitAtEvent.motion = s.motion :=
    (State.commitAtEvent_frame _).2.2.1.trans hmotion
  have hentered : (s.beforeCommit cause).commitAtEvent.bend
      = if mode ≠ s.sup.mode ∧ mode.unbent = true then s.bend.straight else s.bend.commitClamp s.bank.staged := by
    have hold : (s.beforeCommit cause).applied.sup.mode = s.sup.mode := congrArg Supervisor.mode hsup
    have hclamped : (s.beforeCommit cause).applied.bend = s.bend.commitClamp s.bank.staged := by
      rw [State.applied, hbefore, hbank]
    rw [State.beforeCommit_applied hp hv] at hcommitted ⊢
    rw [State.withLink_bend, hcommitted, hold, hclamped]
    rfl
  rw [hbend, hactive, hcommitted, hmotion', hentered]

/-- In NORMAL and HOLD the stages run from the clamped angles (R28, R37). -/
theorem State.outputFrameEvent_applied_pass
    (h : (s.outputFrameEvent cause).sup.mode = .normal ∨ (s.outputFrameEvent cause).sup.mode = .hold) :
    (s.outputFrameEvent cause).bend = (s.bend.commitClamp s.bank.staged).pass s.bank.staged s.motion := by
  have hbent : (s.outputFrameEvent cause).sup.mode.unbent = false := by rcases h with h | h <;> rw [h] <;> rfl
  rw [State.outputFrameEvent_applied_bend hp hv cause rfl, BendUnit.frame_pass h, hbent,
    if_neg fun hentered => Bool.false_ne_true hentered.2]

/-- In the other modes the stages do not run: the clamped bend stays, or is set to 0 on entry (R28, R37, R38). -/
theorem State.outputFrameEvent_applied_unbent
    (h : (s.outputFrameEvent cause).sup.mode = .fallback ∨ (s.outputFrameEvent cause).sup.mode = .dark
      ∨ (s.outputFrameEvent cause).sup.mode = .test) :
    (s.outputFrameEvent cause).bend
      = { (if (s.outputFrameEvent cause).sup.mode = s.sup.mode then s.bend.commitClamp s.bank.staged else s.bend.straight) with
          inputLost := false } := by
  have hunbent : (s.outputFrameEvent cause).sup.mode.unbent = true := by rcases h with h | h | h <;> rw [h] <;> rfl
  rw [State.outputFrameEvent_applied_bend hp hv cause rfl, BendUnit.frame_kept h, hunbent]
  simp only [ne_eq, and_true, ite_not]

end

/-! ### The line and the flywheel at a change of the sync source (R139, R143) -/

theorem Timebase.syncFrame_toExternal {old new : BankCopy} (hold : natField old 1 1 = 0) (hnew : natField new 1 1 ≠ 0)
    (t : Timebase) :
    t.syncFrame old new = { t.endStrobe with fsyncDriven := false, flywheel := 0, syncLost := false } := by
  have hinternal : syncExternal old = false := by rw [syncExternal_eq_decide, hold]; rfl
  rw [Timebase.syncFrame, hinternal, (syncExternal_iff new).2 hnew]

theorem Timebase.syncFrame_toInternal {old new : BankCopy} (hold : natField old 1 1 ≠ 0) (hnew : natField new 1 1 = 0)
    (t : Timebase) :
    t.syncFrame old new
      = { t.endStrobe with fsyncDriven := true, strobeIdle := strobeIdleLevel new, flywheel := 0, syncLost := false } := by
  have hinternal : syncExternal new = false := by rw [syncExternal_eq_decide, hnew]; rfl
  rw [Timebase.syncFrame, (syncExternal_iff old).2 hold, hinternal]

/-! ### The obligation -/

/-- A rejected commit sets COMMIT_REJECTED (R155). -/
theorem State.outputFrameEvent_rejected_flag {s : State} {id off : Nat} (hp : s.bank.commitPending = true)
    (hf : bankFault s.bank.staged = some (id, off)) (cause : FrameCause) :
    (s.outputFrameEvent cause).flag .commitRejected = true := by
  obtain ⟨-, -, -, -, hflag⟩ := s.outputFrameEvent_afterCommit cause
  obtain ⟨-, -, -, -, hbank, -⟩ := s.beforeCommit_frame cause
  rw [← hbank] at hp hf
  rw [hflag .commitRejected nofun, State.commitAtEvent_rejected hp hf, State.raise_flag, Flag.mask_bit]
  simp

/-- Settles O34: the checks word by word; then the decision by the first fault, and an applied commit block by block. -/
theorem commitAppliedOrRejected : Obligations.CommitAppliedOrRejected := by
  refine ⟨fun b => ⟨wordOk_linkNominal b, wordOk_linkTolerance b, wordOk_linkLossTimeout b, wordOk_preload b, fun d => ?_⟩,
    fun s hr hpending => ?_⟩
  · intro g rows segments
    have hsegments : segmentCount b d = segments := by rw [segmentCount, rowCount, colCount, geometryId_eq]
    refine ⟨wordOk_rows b d, wordOk_columns b d, wordOk_columnWidth b d, wordOk_spanLeft b d,
      fun r hr => ⟨fun hbeyond => ?_, fun hrow => ⟨wordOk_rowTop hr hrow, wordOk_rowBottom hr hrow⟩⟩,
      fun k _ => ⟨fun hunused o ho => driverMapWordOk_unused ho hunused, fun hused => ⟨driverMapWordOk_side hused,
        driverMapWordOk_chip hused, driverMapWordOk_address hused, fun hside => ?_⟩⟩, fun id n hlow hhigh hn => ?_⟩
    · exact ⟨wordOk_boundBeyond (by omega) (by omega) (hbeyond.trans (by omega)),
        wordOk_boundBeyond (by omega) (by omega) (hbeyond.trans (by omega))⟩
    · rw [← hsegments]
      exact driverMapWordOk_run hused hside
    · rw [wordOk_pattern hlow hhigh, patternWordOk_iff d hn, hsegments]
  · let e : State := s.elapse s.time.ticksToExpiry
    let cause := expiryCause s.bank.active
    let t := e.outputFrameEvent cause
    have hp : e.bank.commitPending = true := hpending
    have hexec : exec .frameTimerExpiry s = .next t := by
      rw [exec, execFrameTimerExpiry, State.running_normal hr]
      rfl
    have hbank : t.bank = s.bank.decide := (e.outputFrameEvent_decides cause).trans (if_pos hpending)
    obtain ⟨hsettled, hstaged⟩ := s.bank.decide_frame
    refine ⟨t, hexec, by rw [hbank, hsettled], by rw [hbank, hstaged], fun hvalid => ?_, fun id hid off hoff hbad hfirst => ?_⟩
    · have hv : bankFault e.bank.staged = none := bankFault_none.2 hvalid
      have hdecided := TableBank.decide_of_valid hv
      have hlink : t.link = (s.link.commit s.bank.staged s.time.msClock).link := State.outputFrameEvent_applied_link hp hv cause
      have hmode := State.outputFrameEvent_applied_mode hp hv cause
      obtain ⟨hcount, -⟩ := e.outputFrameEvent_counts cause
      have hactive : t.bank.active = s.bank.staged := by rw [hbank]; exact congrArg TableBank.active hdecided
      have htime : t.time = (e.time.frame s.bank.active cause).syncFrame s.bank.active s.bank.staged := by
        rw [← hactive]
        exact (e.outputFrameEvent_time cause).2
      refine ⟨hactive, ?_, ?_, ?_, fun d => ?_, fun d i r hi => ?_, ?_, fun d => ?_, hcount, fun hold hnew => ?_,
        fun hold hnew => ?_⟩
      · rw [hbank]; exact congrArg TableBank.outcome hdecided
      · rw [hbank]; exact congrArg TableBank.commitCount hdecided
      · refine (State.outputFrameEvent_applied_flag hp hv cause (f := .commitRejected) nofun nofun nofun).trans ?_
        rw [LinkMonitor.commit_bit (f := .commitRejected) _ _ _ nofun nofun, Bool.or_false]
        rfl
      · rw [State.outputFrameEvent_applied_chips hp hv, remapChips, List.length_mapIdx]
        rfl
      · rw [State.outputFrameEvent_applied_chips hp hv, remapChips, List.getElem?_mapIdx]
        refine (congrArg _ hi).trans (congrArg some ?_)
        cases hentry : chipEntry s.bank.staged d (i + 1) with
        | none => exact ChipRecord.remap_unmapped hentry r
        | some entry => exact ChipRecord.remap_mapped hentry r
      · intro nominal tolerance estimate gap lapses loses lapsed down
        have hlapsed : s.link.lapsedAt s.bank.staged s.time.msClock = lapsed := rfl
        have hdown : s.link.downAt s.bank.staged s.time.msClock = down := rfl
        refine ⟨?_, ?_, ?_, ?_⟩
        · rw [hlink, LinkMonitor.commit_eq, hlapsed, hdown]
        · refine (State.outputFrameEvent_applied_flag hp hv cause (f := .linkLapsed) nofun nofun nofun).trans ?_
          exact congrArg (s.flag .linkLapsed || ·) (LinkMonitor.commit_lapsed_bit _ _ _)
        · refine (State.outputFrameEvent_applied_flag hp hv cause (f := .linkDown) nofun nofun nofun).trans ?_
          exact congrArg (s.flag .linkDown || ·) (LinkMonitor.commit_down_bit _ _ _)
        · exact hmode
      · intro most clamped
        refine ⟨fun hm => ?_, fun hm => ?_⟩
        · have hbend : t.bend = _ := State.outputFrameEvent_applied_pass hp hv cause hm
          simp only [hbend, BendUnit.pass, BendUnit.commitClamp, Sided.get_of]
          exact ⟨rfl, rfl⟩
        · have hbend : t.bend = _ := State.outputFrameEvent_applied_unbent hp hv cause hm
          have hsame : e.sup.mode = s.sup.mode := rfl
          rw [hbend, hsame]
          by_cases hentered : t.sup.mode = s.sup.mode
          · rw [if_pos hentered, if_pos hentered, if_pos hentered]
            exact ⟨Sided.get_of _ d, rfl⟩
          · rw [if_neg hentered, if_neg hentered, if_neg hentered]
            exact ⟨Sided.get_both _ d, Sided.get_both _ d⟩
      · rw [htime, Timebase.syncFrame_toExternal hold hnew]
        exact ⟨rfl, rfl, rfl, rfl⟩
      · rw [htime, Timebase.syncFrame_toInternal hold hnew]
        exact ⟨rfl, rfl, rfl, rfl, rfl⟩
    · have hf : bankFault s.bank.staged = some (id, off) := bankFault_some hid hoff hbad hfirst
      have hdecided := TableBank.decide_of_fault hf
      refine ⟨?_, ?_, ?_, State.outputFrameEvent_rejected_flag hp hf cause⟩ <;> rw [hbank, hdecided]

end Sys2Proof.Machine
end

section
/-! SUPPORT. The laws of the upstream queue (R158, R161): the slots in use, the claims that wait, and the entry of a MANAGE frame's
records; every command keeps both laws. -/

namespace Sys2Proof.Machine

open Sys2Proof

/-! ### Slots and claims (R161) -/

/-- The slots of the queue in use: occupied, or reserved for a REPLY (R161). -/
def Management.used (m : Management) : Nat := m.queue.length + m.reserved

theorem Management.hasRoom_eq (m : Management) : m.hasRoom = decide (m.used < 4) := rfl

theorem Management.queueLaw_iff (m : Management) : m.queueLaw = true ↔ m.used ≤ 4 := decide_eq_true_iff

theorem State.claimLaw_iff (s : State) : s.claimLaw = true ↔ (s.mgmt.used < 4 → s.claimWaits = false) := by
  rw [State.claimLaw, Management.hasRoom_eq]
  cases s.claimWaits <;> simp

/-- Both laws of the queue. -/
structure State.QueueLaws (s : State) : Prop where
  queue : s.mgmt.queueLaw = true
  claim : s.claimLaw = true

/-- Slots that are taken keep both laws while no claim is made. -/
theorem State.QueueLaws.of_used {s t : State} (h : s.QueueLaws) (hmore : s.mgmt.used ≤ t.mgmt.used)
    (hmost : t.mgmt.used ≤ 4) (hwaits : t.claimWaits = s.claimWaits) : t.QueueLaws where
  queue := (Management.queueLaw_iff _).2 hmost
  claim := t.claimLaw_iff.2 fun hroom => hwaits.trans (s.claimLaw_iff.1 h.claim (Nat.lt_of_le_of_lt hmore hroom))

/-- Once free slots are given to the claims both laws hold (R161). -/
theorem State.queueLaws_admitClaims {s : State} (h : s.mgmt.queueLaw = true) : s.admitClaims.QueueLaws :=
  ⟨s.admitClaims_admits.queueLaw h, s.admitClaims_claimLaw⟩

/-- The periodic STATUS takes a free slot at most (R162). -/
theorem State.periodicStatus_queueLaws {s : State} (h : s.QueueLaws) : s.periodicStatus.QueueLaws := by
  have hqueue := s.periodicStatus_admits.queueLaw h.queue
  rcases s.periodicStatus_cases with heq | ⟨-, heq⟩
  · rwa [heq]
  · rw [heq] at hqueue ⊢
    have hused : (s.mgmt.push (.status (s.statusReport .periodic))).used = s.mgmt.used + 1 := by
      rw [Management.used, Management.used, Management.push, List.length_append]
      exact Nat.add_right_comm _ _ _
    exact h.of_used (hused ▸ Nat.le_succ _) ((Management.queueLaw_iff _).1 hqueue) rfl

/-! ### Effects that leave the queue and the claims -/

/-- `t` has the frames, the MANAGE frame and the claims of `s`, and its ports offer the same PASS_RESULTs. -/
structure State.KeepsClaims (s t : State) : Prop where
  queue : t.mgmt.queue = s.mgmt.queue
  manage : t.mgmt.manage = s.mgmt.manage
  statusClaim : t.mgmt.statusClaim = s.mgmt.statusClaim
  reportClaim : t.mgmt.reportClaim = s.mgmt.reportClaim
  offer : ∀ d, (t.ports.get d).pass.offer d = (s.ports.get d).pass.offer d

namespace State.KeepsClaims

theorem used {s t : State} (h : s.KeepsClaims t) : t.mgmt.used = s.mgmt.used := by
  rw [Management.used, Management.used, h.queue, Management.reserved_of_manage h.manage]

theorem claimWaits {s t : State} (h : s.KeepsClaims t) : t.claimWaits = s.claimWaits := by
  have hleft : t.ports.left.pass.offer .left = s.ports.left.pass.offer .left := h.offer .left
  have hright : t.ports.right.pass.offer .right = s.ports.right.pass.offer .right := h.offer .right
  rw [State.claimWaits, State.claimWaits, hleft, hright, h.statusClaim, h.reportClaim]

theorem laws {s t : State} (h : s.KeepsClaims t) (hs : s.QueueLaws) : t.QueueLaws :=
  hs.of_used h.used.ge (h.used.le.trans ((Management.queueLaw_iff _).1 hs.queue)) h.claimWaits

theorem refl (s : State) : s.KeepsClaims s := ⟨rfl, rfl, rfl, rfl, fun _ => rfl⟩

theorem trans {s t u : State} (h : s.KeepsClaims t) (h' : t.KeepsClaims u) : s.KeepsClaims u :=
  ⟨h'.queue.trans h.queue, h'.manage.trans h.manage, h'.statusClaim.trans h.statusClaim,
    h'.reportClaim.trans h.reportClaim, fun d => (h'.offer d).trans (h.offer d)⟩

theorem of_eq {s t : State} (hports : t.ports = s.ports := by rfl) (hqueue : t.mgmt.queue = s.mgmt.queue := by rfl)
    (hmanage : t.mgmt.manage = s.mgmt.manage := by rfl) (hstatus : t.mgmt.statusClaim = s.mgmt.statusClaim := by rfl)
    (hreport : t.mgmt.reportClaim = s.mgmt.reportClaim := by rfl) : s.KeepsClaims t :=
  ⟨hqueue, hmanage, hstatus, hreport, fun d => by rw [hports]⟩

/-- One side's port changes, and offers what it offered. -/
theorem of_set {s : State} {d : Side} {p : Port} (h : p.pass.offer d = (s.ports.get d).pass.offer d) :
    s.KeepsClaims { s with ports := s.ports.set d p } := by
  refine ⟨rfl, rfl, rfl, rfl, fun e => ?_⟩
  by_cases he : e = d
  · subst he
    rw [Sided.get_set_same, h]
  · rw [Sided.get_set_of_ne _ he]

end State.KeepsClaims

/-- A mode decision leaves the pass-through slots: a port that resumes keeps its own (R106, R112). -/
theorem State.decideMode_keepsClaims (s : State) : s.KeepsClaims s.decideMode := by
  refine ⟨rfl, rfl, rfl, rfl, fun d => ?_⟩
  rcases s.decideMode_ports with h | h <;> rw [h]
  rw [Sided.get_of, Port.resume_pass]

theorem State.withLink_keepsClaims (s : State) (e : LinkEffect) : s.KeepsClaims (s.withLink e) := by
  obtain ⟨-, -, -, -, -, -, -, -, -, -, -, hqueue, hmanage, hreport, hstatus, -⟩ := s.withLink_frame e
  exact ⟨hqueue, hmanage, hstatus, hreport, fun d => by rw [s.withLink_pass]⟩

theorem State.endTest_keepsClaims (s : State) (flagged : Bool) : s.KeepsClaims (s.endTest flagged) := by
  have hended : s.KeepsClaims
      { s.raise (Flag.testEnded.maskIf flagged) with sup := { s.sup with testActive := false } } := .of_eq
  exact hended.trans (State.decideMode_keepsClaims _)

theorem State.startTest_keepsClaims (s : State) (p : TestProgram) : s.KeepsClaims (s.startTest p) := by
  have hstarted : s.KeepsClaims
      { s with sup := { s.sup with testActive := true, program := some p, current := p.enabled.head?, walk := 0, dwell := 0 } } :=
    .of_eq
  exact hstarted.trans (State.decideMode_keepsClaims _)

theorem State.startReceived_keepsClaims (s : State) : s.KeepsClaims s.startReceived := by
  rw [State.startReceived]
  split_ifs <;> exact .of_eq

theorem State.frameFails_keepsClaims (s : State) (cause : FrameFault) : s.KeepsClaims (s.frameFails cause) := by
  cases cause with
  | startInFrame => exact .of_eq
  | overflow => exact .of_eq
  | failedCheck data =>
    rw [State.frameFails]
    split_ifs <;> exact .of_eq

theorem State.squelched_keepsClaims (s : State) : s.KeepsClaims s.squelched := by
  have hdiscarded : s.KeepsClaims (s.frameDiscarded false) := .of_eq
  rw [State.squelched]
  split_ifs
  · exact hdiscarded.trans (State.withLink_keepsClaims _ _)
  · exact s.withLink_keepsClaims _

theorem State.motionArrives_keepsClaims (s : State) (m : MotionPayload) : s.KeepsClaims (s.motionArrives m) := by
  let recorded : State := { s with rx := s.rx.accepted (frameBytes classMotion (motionBytes m)), motion := motionOf m }
  have hlink : ∀ e, s.KeepsClaims (recorded.withLink e) := fun e =>
    State.KeepsClaims.trans (t := recorded) .of_eq (recorded.withLink_keepsClaims e)
  rw [State.motionArrives, State.testSpeedCheck]
  split_ifs
  · exact (hlink _).trans (State.endTest_keepsClaims _ _)
  · exact hlink _

theorem State.sceneFrame_keepsClaims (s : State) (p : ScenePayload) :
    s.KeepsClaims (if p.framed then s.sceneArrives p else s.frameDiscarded false) := by
  split_ifs <;> exact .of_eq

theorem State.patternFrame_keepsClaims (s : State) (p : PatternPayload) : s.KeepsClaims (s.patternFrame p) := by
  rw [State.patternFrame]
  split
  · split_ifs <;> exact .of_eq
  · exact .of_eq

theorem State.lowreqLineTo_keepsClaims (s : State) (active : Bool) : s.KeepsClaims (s.lowreqLineTo active) := by
  rw [State.lowreqLineTo]
  split_ifs <;> exact .of_eq

theorem State.lowreqTaken_keepsClaims (s : State) : s.KeepsClaims s.lowreqTaken := by
  rw [State.lowreqTaken]
  split
  · exact .refl s
  · rename_i h _
    have htaken : s.KeepsClaims
        { s.elapse (Config.lowreqTicks - h) with
          sup := { (s.elapse (Config.lowreqTicks - h)).sup with
            lowreqLevel := (s.elapse (Config.lowreqTicks - h)).sup.lowreqLine, lowreqHeld := none } } := .of_eq
    exact htaken.trans (State.decideMode_keepsClaims _)

theorem State.strobeEnds_keepsClaims (s : State) : s.KeepsClaims s.strobeEnds := by
  rw [State.strobeEnds]
  split_ifs <;> exact .of_eq

/-- A frame that reaches a port leaves its pass-through slot (R98). -/
theorem State.completeComposition_keepsClaims (s : State) : s.KeepsClaims s.completeComposition := by
  cases hf : s.composer.inFlight with
  | none => rw [State.completeComposition_none hf]; exact .refl s
  | some x =>
    rw [State.completeComposition_some hf]
    refine ⟨rfl, rfl, rfl, rfl, fun d => ?_⟩
    rw [State.raise_ports, Sided.get_of, State.frameToPort, Port.frameArrives_pass]

/-! ### Effects that give slots to the claims -/

theorem resetUnder_queueLaws (bank : TableBank) (line : Bool) (waiting : List Instr) :
    (resetUnder bank line waiting).QueueLaws := ⟨rfl, rfl⟩

/-- An output frame event ends with the claims and the periodic STATUS (R162). -/
theorem State.outputFrameEvent_queueLaws {s : State} (h : s.QueueLaws) (cause : FrameCause) :
    (s.outputFrameEvent cause).QueueLaws := by
  obtain ⟨-, -, -, -, -, -, hqueue, hmanage, -⟩ := s.atDecisions_frame cause
  have hkept : (s.atDecisions cause).mgmt.used = s.mgmt.used := by
    rw [Management.used, Management.used, hqueue, Management.reserved_of_manage hmanage]
  have hdecided : (s.atDecisions cause).mgmt.queueLaw = true :=
    (Management.queueLaw_iff _).2 (hkept.le.trans ((Management.queueLaw_iff _).1 h.queue))
  rw [s.outputFrameEvent_eq]
  exact State.periodicStatus_queueLaws (State.queueLaws_admitClaims hdecided)

theorem State.syncEdgeArrives_queueLaws {s : State} (h : s.QueueLaws) (edge : SyncEdge) :
    (s.syncEdgeArrives edge).QueueLaws := by
  rw [State.syncEdgeArrives]
  split_ifs
  · exact State.outputFrameEvent_queueLaws h _
  · exact State.KeepsClaims.laws .of_eq h
  · exact h

/-- An event on a bus ends with the claims (R103). -/
theorem State.busEvent_queueLaws {s : State} (h : s.QueueLaws) (d : Side) (act : BankCopy → Bool → Port → PortEffect) :
    (s.busEvent d act).QueueLaws :=
  State.queueLaws_admitClaims h.queue

theorem State.headSent_queueLaws {s : State} (h : s.QueueLaws) : s.headSent.QueueLaws := by
  rcases s.headSent_cases with ⟨-, heq⟩ | ⟨f, rest, -, -, heq⟩ | ⟨f, rest, hq, -, heq⟩ <;> rw [heq]
  · exact h
  · exact resetUnder_queueLaws _ _ _
  · refine State.queueLaws_admitClaims ((Management.queueLaw_iff _).2 ?_)
    have hused : s.mgmt.used ≤ 4 := (Management.queueLaw_iff _).1 h.queue
    rw [Management.used, hq, List.length_cons] at hused
    have hrest : rest.length + s.mgmt.reserved ≤ 4 := by omega
    exact hrest

theorem State.warmResetDue_queueLaws {s : State} (h : s.QueueLaws) : s.warmResetDue.QueueLaws := by
  rw [State.warmResetDue]
  split_ifs
  · exact resetUnder_queueLaws _ _ _
  · exact h

/-! ### MANAGE commands (R158 to R160) -/

theorem Port.halt_pass (p : Port) : p.halt.pass = p.pass := by
  rw [Port.halt]
  split <;> rfl

theorem Port.stop_pass (p : Port) : p.stop.pass = p.pass := by
  rw [Port.stop]
  split
  · rfl
  · rfl
  · rfl
  · split <;> rfl

/-- A request for a chip that the map names offers no result yet (R101, R103). -/
theorem Port.queuePass_offer {b : BankCopy} {d : Side} {r : PassRequest} (h : chipEntry b d r.chip ≠ none) (p : Port) :
    (p.queuePass b d r).pass.offer d = none := by
  obtain ⟨e, he⟩ := Option.ne_none_iff_exists'.1 h
  rw [Port.queuePass]
  split_ifs
  · rw [Port.performWaiting]
    dsimp only
    rw [Port.perform, he]
    rfl
  · rfl

theorem withoutParams_keepsClaims {run : State → CommandEffect} (hrun : ∀ u : State, u.KeepsClaims (run u).state)
    (params : List Byte) (s : State) : s.KeepsClaims (withoutParams run params s).state := by
  rw [withoutParams]
  split
  · exact .refl s
  · exact hrun s

theorem portCommand_keepsClaims {act : BankCopy → Port → Port} (hact : ∀ b p, (act b p).pass = p.pass)
    (params : List Byte) (s : State) : s.KeepsClaims (portCommand act params s).state := by
  rw [portCommand]
  split
  · exact .refl s
  · split
    · exact .refl s
    · split_ifs
      · exact .of_set (by rw [hact])
      · exact .refl s

theorem driverPassCommand_keepsClaims (params : List Byte) (s : State) :
    s.KeepsClaims (driverPassCommand params s).state := by
  rw [driverPassCommand]
  split
  · exact .refl s
  · split
    · exact .refl s
    · split_ifs with hrange hmap hslot
      · exact .refl s
      · exact .refl s
      · exact .refl s
      · refine .of_set ?_
        rw [Port.queuePass_offer (mt Option.isNone_iff_eq_none.2 hmap), not_not.1 hslot]
        rfl

/-- A command's own part leaves its MANAGE frame open and keeps both laws: STATUS NOW gives free slots to the claims (R162), and
no other command touches the queue. -/
theorem manageRun_queueLaws (code : Byte) (params : List Byte) {s : State} (h : s.QueueLaws) :
    (manageRun code params s).state.QueueLaws ∧ (manageRun code params s).state.mgmt.manage = s.mgmt.manage := by
  have hkept : ∀ {e : CommandEffect}, s.KeepsClaims e.state → e.state.QueueLaws ∧ e.state.mgmt.manage = s.mgmt.manage :=
    fun he => ⟨he.laws h, he.manage⟩
  rw [manageRun]
  generalize code.toNat = n
  split
  case h_1 =>
    refine hkept ?_
    rw [tableWriteCommand]
    split
    · exact .refl s
    · split_ifs <;> exact .of_eq
  case h_2 =>
    refine hkept ?_
    rw [tableReadCommand]
    split
    · exact .refl s
    · split_ifs <;> exact .refl s
  case h_3 => exact hkept (withoutParams_keepsClaims (fun _ => .of_eq) params s)
  case h_4 => exact hkept (withoutParams_keepsClaims (fun _ => .of_eq) params s)
  case h_5 =>
    rw [statusNowCommand, withoutParams]
    split
    · exact ⟨h, rfl⟩
    · let claimed : State := { s with mgmt := { s.mgmt with statusClaim := true } }
      obtain ⟨-, -, -, -, -, -, -, -, -, -, -, -, -, -, -, hmanage, -⟩ := claimed.admitClaims_admits.frame
      exact ⟨State.queueLaws_admitClaims h.queue, hmanage⟩
  case h_6 =>
    refine hkept ?_
    rw [flagClearCommand]
    split <;> exact .of_eq
  case h_7 => exact hkept (withoutParams_keepsClaims (fun _ => .of_eq) params s)
  case h_8 =>
    refine hkept ?_
    rw [frameAlignCommand]
    split
    · exact .refl s
    · split_ifs <;> exact .of_eq
  case h_9 =>
    refine hkept ?_
    rw [testEnterCommand]
    split
    · exact .refl s
    · split_ifs
      · exact .refl s
      · exact .refl s
      · exact .refl s
      · exact s.startTest_keepsClaims _
  case h_10 =>
    refine hkept (withoutParams_keepsClaims (fun u => ?_) params s)
    dsimp only
    split_ifs
    · exact u.endTest_keepsClaims _
    · exact .refl u
  case h_11 => exact hkept (portCommand_keepsClaims (fun _ p => p.halt_pass) params s)
  case h_12 => exact hkept (portCommand_keepsClaims (fun _ p => p.stop_pass) params s)
  case h_13 => exact hkept (portCommand_keepsClaims Port.resume_pass params s)
  case h_14 => exact hkept (driverPassCommand_keepsClaims params s)
  case h_15 => exact hkept (withoutParams_keepsClaims (fun _ => .of_eq) params s)
  case h_16 => exact hkept (.refl s)

/-- A record opens its MANAGE frame where none is open (R158). -/
theorem State.openFrame_manage (s : State) (tag : Byte) :
    (s.openFrame tag).mgmt.manage = some (s.mgmt.manage.getD (s.mgmt.arriving tag)) := by
  rw [State.openFrame]
  cases hm : s.mgmt.manage with
  | some f => exact hm
  | none => rfl

/-- The frame that opens reserves a slot only where the queue has one (R158). -/
theorem State.openFrame_queueLaws {s : State} (h : s.QueueLaws) (tag : Byte) : (s.openFrame tag).QueueLaws := by
  rw [State.openFrame]
  cases hm : s.mgmt.manage with
  | some f => exact h
  | none =>
    have hfree : s.mgmt.used = s.mgmt.queue.length := by rw [Management.used, Management.reserved, hm]; rfl
    have hbound : s.mgmt.used ≤ 4 := (Management.queueLaw_iff _).1 h.queue
    let arrived := s.mgmt.arriving tag
    let opened : Management := { s.mgmt with manage := some arrived }
    have hused : opened.used = s.mgmt.queue.length + if arrived.discarded then 0 else 1 := rfl
    have htaken : opened.used ≤ 4 := by
      rw [hused]
      cases hd : arrived.discarded
      · simp only [arrived, Management.arriving, Bool.or_eq_false_iff, decide_eq_false_iff_not] at hd
        obtain ⟨-, hroom⟩ := hd
        simp only [Config.queueDepth] at hroom
        simp only [Bool.false_eq_true, if_false]
        omega
      · exact hfree ▸ hbound
    exact h.of_used (hfree.le.trans (Nat.le_add_right _ _)) htaken rfl

/-- A record's command runs in the frame that is open, or is left out, and its result is noted (R158 to R160). -/
theorem State.manageRecord_open {s : State} {f : ManageFrame} {r : ManageRecord}
    (hf : (s.openFrame r.tag).mgmt.manage = some f) (code : Byte) (run : List Byte → State → CommandEffect) :
    let e := if f.discarded then (s.openFrame r.tag).answer .notRun else (s.openFrame r.tag).runCommand f r run
    s.manageRecord code r run = e.state.noted (f.extended code r e.code e.data) r := by
  rw [State.manageRecord]
  dsimp only
  rw [hf]
  exact State.noted_eq _ f r code _

/-- Where a result is noted, the REPLY takes the slot that was reserved for it (R158, R160). -/
theorem State.noted_queueLaws {t : State} (h : t.QueueLaws) {f g : ManageFrame} (hg : t.mgmt.manage = some g)
    (hf : f.discarded = g.discarded) (r : ManageRecord) : (t.noted f r).QueueLaws := by
  have hbefore : t.mgmt.used = t.mgmt.queue.length + if f.discarded then 0 else 1 := by
    rw [Management.used, Management.reserved, hg, hf]
  have hused : (t.noted f r).mgmt.used = t.mgmt.used := by
    rw [hbefore, State.noted]
    by_cases hlast : r.last = true ∨ 8 ≤ f.taken
    · rw [if_pos hlast]
      cases f.discarded
      · exact List.length_append
      · rfl
    · rw [if_neg hlast]
      rfl
  have hwaits : (t.noted f r).claimWaits = t.claimWaits := by
    rw [State.noted]
    split_ifs <;> rfl
  exact h.of_used hused.ge (hused.le.trans ((Management.queueLaw_iff _).1 h.queue)) hwaits

/-- A record keeps both laws where its command does and leaves the MANAGE frame open. -/
theorem State.manageRecord_queueLaws {run : List Byte → State → CommandEffect}
    (hrun : ∀ params u, State.QueueLaws u →
      (run params u).state.QueueLaws ∧ (run params u).state.mgmt.manage = u.mgmt.manage)
    {s : State} (h : s.QueueLaws) (code : Byte) (r : ManageRecord) : (s.manageRecord code r run).QueueLaws := by
  have hopen := s.openFrame_manage r.tag
  have hlaws := State.openFrame_queueLaws h r.tag
  generalize s.mgmt.manage.getD (s.mgmt.arriving r.tag) = f at hopen
  rw [State.manageRecord_open hopen]
  have heffect : ∀ e : CommandEffect, e.state.QueueLaws ∧ e.state.mgmt.manage = (s.openFrame r.tag).mgmt.manage →
      (e.state.noted (f.extended code r e.code e.data) r).QueueLaws := fun e ⟨he, hmanage⟩ =>
    State.noted_queueLaws (f := f.extended code r e.code e.data) he (hmanage.trans hopen) rfl r
  refine heffect _ ?_
  rw [State.runCommand]
  split_ifs
  · exact ⟨hlaws, rfl⟩
  · exact ⟨hlaws, rfl⟩
  · exact hrun r.params _ hlaws

/-! ### Every command and every step -/

/-- Every command has a next state and keeps both laws. -/
theorem exec_queueLaws (c : Instr) (s : State) (h : s.QueueLaws) : ∃ t, exec c s = .next t ∧ t.QueueLaws := by
  have hrunning : ∀ {f : State → State}, (f s).QueueLaws → (s.running f).QueueLaws :=
    fun hf => State.running_keeps (P := State.QueueLaws) h hf
  have hkept : ∀ {f : State → State}, s.KeepsClaims (f s) → (s.running f).QueueLaws := fun hf => hrunning (hf.laws h)
  have hmanage : ∀ (code : Byte) (r : ManageRecord),
      (s.running fun u => u.manageRecord code r (manageRun code)).QueueLaws :=
    fun code r => hrunning (State.manageRecord_queueLaws (fun params _ => manageRun_queueLaws code params) h code r)
  have hbus : ∀ (d : Side) (act : BankCopy → Bool → Port → PortEffect), (s.running fun u => u.busEvent d act).QueueLaws :=
    fun d act => hrunning (State.busEvent_queueLaws h d act)
  cases c with
  | coldReset => exact ⟨_, rfl, rfl, rfl⟩
  | resetEnds =>
    refine ⟨_, rfl, ?_⟩
    split_ifs
    · exact State.KeepsClaims.laws .of_eq h
    · exact h
  | lowreqEdge active => exact ⟨_, rfl, (s.lowreqLineTo_keepsClaims active).laws h⟩
  | lowreqLevelChange => exact ⟨_, rfl, hkept s.lowreqTaken_keepsClaims⟩
  | lineSquelch => exact ⟨_, rfl, hkept s.squelched_keepsClaims⟩
  | linkFrameError cause => exact ⟨_, rfl, hkept (s.frameFails_keepsClaims cause)⟩
  | startSymbol => exact ⟨_, rfl, hkept s.startReceived_keepsClaims⟩
  | motionFrame m => exact ⟨_, rfl, hkept (s.motionArrives_keepsClaims m)⟩
  | sceneFrame p => exact ⟨_, rfl, hkept (s.sceneFrame_keepsClaims p)⟩
  | patternFrame p => exact ⟨_, rfl, hkept (s.patternFrame_keepsClaims p)⟩
  | lapseExpiry => exact ⟨_, rfl, hkept (s.withLink_keepsClaims _)⟩
  | lossExpiry => exact ⟨_, rfl, hkept (s.withLink_keepsClaims _)⟩
  | tableWrite r => exact ⟨_, rfl, hmanage 0x01#8 r⟩
  | tableRead r => exact ⟨_, rfl, hmanage 0x02#8 r⟩
  | commit r => exact ⟨_, rfl, hmanage 0x03#8 r⟩
  | discard r => exact ⟨_, rfl, hmanage 0x04#8 r⟩
  | statusNow r => exact ⟨_, rfl, hmanage 0x05#8 r⟩
  | flagClear r => exact ⟨_, rfl, hmanage 0x06#8 r⟩
  | sceneClear r => exact ⟨_, rfl, hmanage 0x07#8 r⟩
  | frameAlign r => exact ⟨_, rfl, hmanage 0x08#8 r⟩
  | testEnter r => exact ⟨_, rfl, hmanage 0x09#8 r⟩
  | testExit r => exact ⟨_, rfl, hmanage 0x0A#8 r⟩
  | portHalt r => exact ⟨_, rfl, hmanage 0x0B#8 r⟩
  | portStop r => exact ⟨_, rfl, hmanage 0x0C#8 r⟩
  | portResume r => exact ⟨_, rfl, hmanage 0x0D#8 r⟩
  | driverPass r => exact ⟨_, rfl, hmanage 0x0E#8 r⟩
  | warmReset r => exact ⟨_, rfl, hmanage 0x0F#8 r⟩
  | unknownCommand code r =>
    exact ⟨_, rfl, hrunning (State.manageRecord_queueLaws (fun _ _ hu => ⟨hu, rfl⟩) h code r)⟩
  | upstreamFrameSent => exact ⟨_, rfl, hrunning (State.headSent_queueLaws h)⟩
  | queueClaimEntry => exact ⟨_, rfl, hrunning (State.queueLaws_admitClaims h.queue)⟩
  | warmResetTakesEffect => exact ⟨_, rfl, hrunning (State.warmResetDue_queueLaws h)⟩
  | frameTimerExpiry =>
    have helapsed : (s.elapse s.time.ticksToExpiry).QueueLaws := State.KeepsClaims.laws .of_eq h
    exact ⟨_, rfl, hrunning (State.outputFrameEvent_queueLaws helapsed _)⟩
  | fsyncEdge edge => exact ⟨_, rfl, hrunning (State.syncEdgeArrives_queueLaws h edge)⟩
  | strobeEnd => exact ⟨_, rfl, hkept s.strobeEnds_keepsClaims⟩
  | msClockTick => exact ⟨_, rfl, hkept .of_eq⟩
  | compositionComplete => exact ⟨_, rfl, hkept s.completeComposition_keepsClaims⟩
  | segmentWriteAck a => exact ⟨_, rfl, hbus _ _⟩
  | registerAck a => exact ⟨_, rfl, hbus _ _⟩
  | nak a => exact ⟨_, rfl, hbus _ _⟩
  | replyTimeout d => exact ⟨_, rfl, hbus _ _⟩

/-- Settles O48: every command keeps both laws, and neither the queue of commands nor a tick touches them. -/
theorem stepKeepsQueueLaws : Obligations.StepKeepsQueueLaws := by
  intro s t hqueue hclaim hst
  obtain ⟨hqueue', hclaim'⟩ := step_keeps (P := State.QueueLaws) (fun _ _ h => State.KeepsClaims.laws .of_eq h)
    (fun _ _ h => State.KeepsClaims.laws .of_eq h) exec_queueLaws ⟨hqueue, hclaim⟩ hst
  exact ⟨hqueue', hclaim'⟩

end Sys2Proof.Machine
end

section
/-! SUPPORT. The sixteen flags by their positions (R129), and the report request that a flag makes (R163). -/

namespace Sys2Proof.Machine

open Sys2Proof

/-- The order of the flags is the order of their bits (R129). -/
theorem Flag.all_map_bit : Flag.all.map Flag.bit = List.range 16 := rfl

theorem Flag.bit_of_getElem {f : Flag} {i : Nat} (h : Flag.all[i]? = some f) : f.bit = i := by
  have hbit : (Flag.all.map Flag.bit)[i]? = some f.bit := by rw [List.getElem?_map, h]; rfl
  rw [Flag.all_map_bit] at hbit
  obtain ⟨_, hget⟩ := List.getElem?_eq_some_iff.1 hbit
  exact hget.symm.trans (List.getElem_range _)

theorem Flag.mem_all (f : Flag) : f ∈ Flag.all := by
  cases f with
  | driverLost d => cases d <;> decide
  | thermalStop d => cases d <;> decide
  | frameSuperseded d => cases d <;> decide
  | _ => decide

/-- The flag's mask has the bit of its position alone (R129). -/
theorem Flag.mask_getLsbD (f : Flag) (j : Nat) : f.mask.getLsbD j = decide (f.bit = j) := by
  rw [Flag.mask, BitVec.getLsbD_twoPow, decide_eq_true f.bit_lt, Bool.true_and]

/-- A flag asks for a report where the report-enable mask has its bit (R163). -/
theorem Flag.maskIf_enabled (f : Flag) (c : Bool) (enable : Word) :
    ((f.maskIf c &&& enable) != 0#16) = (c && enable.getLsbD f.bit) := by
  cases c with
  | false => simp
  | true =>
    have hmask : f.mask ≠ 0#16 := fun h => by
      have hbit := f.mask_getLsbD f.bit
      rw [h] at hbit
      simp at hbit
    rw [Flag.maskIf_true, Flag.mask, BitVec.twoPow_and, Bool.true_and]
    cases enable.getLsbD f.bit
    · rfl
    · exact bne_iff_ne.2 hmask

/-- Settles O6: each position's flag by the bit of its mask. -/
theorem eachFlagHasItsBit : Obligations.EachFlagHasItsBit := by
  refine ⟨Flag.mem_all, fun s f i hf => ?_⟩
  have hbit : f.bit = i := Flag.bit_of_getElem hf
  refine ⟨by rw [← hbit]; rfl, fun j => ?_, fun g => ?_, ?_, rfl, rfl⟩
  · rw [State.raise_sticky, BitVec.getLsbD_or, Flag.mask_getLsbD, hbit]
  · rw [State.raise_flag, Flag.mask_bit]
  · rw [State.raise_reportRequest, ← Flag.maskIf_true, Flag.maskIf_enabled, Bool.true_and, hbit]
    rfl

end Sys2Proof.Machine
end

section
/-! SUPPORT. The warm reset at the END of its REPLY (R130, R147, R164). -/

namespace Sys2Proof.Machine

open Sys2Proof

/-- With another head, or none, the warm reset does not come (R164). -/
theorem State.warmResetDue_of_otherHead {s : State} (h : ∀ f, s.mgmt.queue.head? = some f → f.warmReply = false) :
    s.warmResetDue = s := by
  refine if_neg fun hdue => ?_
  obtain ⟨f, hf, hw⟩ := (Option.any_eq_true _ _).1 hdue
  exact Bool.false_ne_true ((h f hf).symm.trans hw)

/-- Settles O4: without the REPLY at the head nothing happens; with it both commands are the warm reset, block by block. -/
theorem warmResetKeepsTables : Obligations.WarmResetKeepsTables := by
  refine ⟨fun s hr hhead => ?_, fun s f rest hr hq hw => ?_⟩
  · rw [exec, execWarmResetTakesEffect, State.running_normal hr, State.warmResetDue_of_otherHead hhead]
  · obtain ⟨hdue, hsent⟩ := State.warmResetDue_eq_headSent hq hw
    refine ⟨s.warmResetNow, ?_, ?_, rfl, rfl, rfl, rfl, rfl, rfl, rfl, rfl, rfl, rfl, rfl, rfl, rfl, rfl,
      fun d => Sided.get_of _ d, rfl, rfl, rfl, rfl, rfl, rfl, rfl, rfl, rfl, rfl, rfl, rfl, rfl, rfl, rfl, rfl⟩
    · rw [exec, execWarmResetTakesEffect, State.running_normal hr, hdue]
    · rw [exec, execUpstreamFrameSent, State.running_normal hr, hsent]

end Sys2Proof.Machine
end

section
/-! SUPPORT. MANAGE records that are not executed (R158, R159, R164). -/

namespace Sys2Proof.Machine

open Sys2Proof

/-- In a discarded frame, and after a WARM RESET of the frame, a record is noted as NOT_RUN and has no effect (R158, R159). -/
theorem State.manageRecord_notRun {s : State} {f : ManageFrame} {r : ManageRecord}
    (hf : (s.openFrame r.tag).mgmt.manage = some f) (h : f.discarded = true ∨ f.warmTaken = true) (code : Byte)
    (run : List Byte → State → CommandEffect) :
    s.manageRecord code r run = (s.openFrame r.tag).noted (f.extended code r .notRun []) r := by
  have heffect : (if f.discarded then (s.openFrame r.tag).answer .notRun else (s.openFrame r.tag).runCommand f r run)
      = (s.openFrame r.tag).answer .notRun := by
    rw [State.runCommand]
    split_ifs with hd hw
    · rfl
    · rfl
    · exact absurd h (not_or.2 ⟨hd, hw⟩)
  rw [State.manageRecord_open hf, heffect]
  rfl

/-- A frame that finds warm reset pending, or the queue full, is discarded, with MANAGE_OVERRUN in the second case (R158). -/
theorem State.openFrame_discarded {s : State} (hm : s.mgmt.manage = none)
    (h : s.mgmt.warmPending = true ∨ 4 ≤ s.mgmt.queue.length) (r : ManageRecord) :
    let t := if s.mgmt.warmPending = true then s else s.raise Flag.manageOverrun.mask
    s.openFrame r.tag
      = { t with mgmt := { t.mgmt with manage := some { s.frameFor r with discarded := true } } } := by
  have hdiscarded : (s.mgmt.warmPending || decide (4 ≤ s.mgmt.queue.length)) = true := by
    rw [Bool.or_eq_true, decide_eq_true_iff]
    exact h
  have harriving : s.mgmt.arriving r.tag = { s.frameFor r with discarded := true } := by
    rw [Management.arriving, State.frameFor, hm, Config.queueDepth, hdiscarded]
    rfl
  have hopen : s.openFrame r.tag
      = { s.raise (Flag.manageOverrun.maskIf s.mgmt.overruns) with
          mgmt := { (s.raise (Flag.manageOverrun.maskIf s.mgmt.overruns)).mgmt with
            manage := some (s.mgmt.arriving r.tag) } } := by
    rw [State.openFrame, hm]
  intro t
  have ht : s.raise (Flag.manageOverrun.maskIf s.mgmt.overruns) = t := by
    cases hw : s.mgmt.warmPending with
    | false =>
      rw [hw, Bool.false_or] at hdiscarded
      have hoverruns : s.mgmt.overruns = true := by
        rw [Management.overruns, hw, Config.queueDepth, hdiscarded]
        rfl
      rw [hoverruns]
      simp only [t, hw, Bool.false_eq_true, if_false, Flag.maskIf_true]
    | true =>
      have hoverruns : s.mgmt.overruns = false := by rw [Management.overruns, hw]; rfl
      rw [hoverruns, Flag.maskIf_false, State.raise_zero]
      simp only [t, hw, if_true]
  rw [hopen, harriving, ht]

/-- Settles O22: the first record of a discarded frame, and the later records of a frame that executes none. -/
theorem unexecutedRecords : Obligations.UnexecutedRecords := by
  refine ⟨fun code r s hr hm h => ?_, fun code r f s hr hm h => ?_⟩
  · have hopen := State.openFrame_discarded hm h r
    have hmanage : (s.openFrame r.tag).mgmt.manage = some { s.frameFor r with discarded := true } := by rw [hopen]
    rw [exec_commandOf hr, State.manageRecord_notRun hmanage (.inl rfl), hopen]
    exact congrArg _ (State.noted_manage _ _ _ r)
  · have hopen : s.openFrame r.tag = s := by rw [State.openFrame, hm]
    have hmanage : (s.openFrame r.tag).mgmt.manage = some f := by rw [hopen, hm]
    rw [exec_commandOf hr, State.manageRecord_notRun hmanage h, hopen]

end Sys2Proof.Machine
end

section
/-! SUPPORT. The claims in the arbiter's order (R161): UPSTREAM_FRAME_SENT, QUEUE_CLAIM_ENTRY and STATUS_NOW. -/

namespace Sys2Proof.Machine

open Sys2Proof

/-! ### Claims one by one -/

theorem State.admitPass_full {s : State} (h : s.mgmt.hasRoom = false) (d : Side) : s.admitPass d = s := by
  rw [State.admitPass]
  split
  · rw [h, if_neg Bool.false_ne_true]
  · rfl

theorem State.admitStatusNow_full {s : State} (h : s.mgmt.hasRoom = false) : s.admitStatusNow = s := by
  rw [State.admitStatusNow, h, Bool.and_false, if_neg Bool.false_ne_true]

theorem State.admitReportNow_full {s : State} (h : s.mgmt.hasRoom = false) : s.admitReportNow = s := by
  rw [State.admitReportNow, h, Bool.and_false, if_neg Bool.false_ne_true]

theorem State.admitPass_enters {s : State} {d : Side} {q : PassRequest} {result : Option Word}
    (h : (s.ports.get d).pass = .held q result) (hroom : s.mgmt.hasRoom = true) :
    s.admitPass d = { s with
      mgmt := s.mgmt.push (.passResult d q.chip result)
      ports := s.ports.set d { s.ports.get d with pass := .empty } } := by
  rw [State.admitPass, h, hroom]
  rfl

theorem State.admitStatusNow_enters {s : State} (h : s.mgmt.statusClaim = true) (hroom : s.mgmt.hasRoom = true) :
    s.admitStatusNow
      = { s with mgmt := { s.mgmt.push (.status (s.statusReport .statusNow)) with statusClaim := false } } := by
  rw [State.admitStatusNow, h, hroom]
  rfl

theorem State.admitStatusNow_none {s : State} (h : s.mgmt.statusClaim = false) : s.admitStatusNow = s := by
  rw [State.admitStatusNow, h, Bool.false_and, if_neg Bool.false_ne_true]

theorem State.admitReportNow_enters {s : State} (h : s.mgmt.reportClaim = true) (hroom : s.mgmt.hasRoom = true) :
    s.admitReportNow
      = { s with mgmt := { s.mgmt.push (.status (s.statusReport .reportNow)) with reportClaim := false } } := by
  rw [State.admitReportNow, h, hroom]
  rfl

theorem State.admitReportNow_none {s : State} (h : s.mgmt.reportClaim = false) : s.admitReportNow = s := by
  rw [State.admitReportNow, h, Bool.false_and, if_neg Bool.false_ne_true]

/-- Where no side offers a PASS_RESULT the STATUS claims are served (R161). -/
theorem State.admitClaims_noPass {s : State} (h : ∀ d, (s.ports.get d).pass.offer d = none) :
    s.admitClaims = s.admitStatusNow.admitReportNow := by
  rw [State.admitClaims, State.admitPass_none (h .left), State.admitPass_none (h .right)]

/-! ### One free slot (R161) -/

/-- A frame that takes the last free slot leaves none. -/
theorem Management.hasRoom_push {m : Management} (h : m.queue.length + m.reserved = 3) (f : UpFrame) :
    (m.push f).hasRoom = false := by
  have hlength : (m.push f).queue.length = m.queue.length + 1 := List.length_append
  have hreserved : (m.push f).reserved = m.reserved := rfl
  rw [Management.hasRoom, hlength, hreserved]
  exact decide_eq_false (by simp only [Config.queueDepth]; omega)

section
variable {s : State} (h : s.mgmt.queue.length + s.mgmt.reserved = 3)
include h

theorem State.hasRoom_of_three : s.mgmt.hasRoom = true := s.hasRoom_iff.2 (by omega)

/-- The slot goes to a PASS_RESULT of LEFT. -/
theorem State.admitClaims_left {q : PassRequest} {result : Option Word} (hleft : s.ports.left.pass = .held q result) :
    s.admitClaims = { s with
      mgmt := { s.mgmt with queue := s.mgmt.queue ++ [.passResult .left q.chip result] }
      ports := { s.ports with left := { s.ports.left with pass := .empty } } } := by
  rw [State.admitClaims, State.admitPass_enters (d := .left) hleft (State.hasRoom_of_three h)]
  have hfull := Management.hasRoom_push h (.passResult .left q.chip result)
  rw [State.admitPass_full hfull, State.admitStatusNow_full hfull, State.admitReportNow_full hfull]
  rfl

/-- With no result of LEFT it goes to a PASS_RESULT of RIGHT. -/
theorem State.admitClaims_right {q : PassRequest} {result : Option Word}
    (hleft : (s.ports.get .left).pass.offer .left = none) (hright : s.ports.right.pass = .held q result) :
    s.admitClaims = { s with
      mgmt := { s.mgmt with queue := s.mgmt.queue ++ [.passResult .right q.chip result] }
      ports := { s.ports with right := { s.ports.right with pass := .empty } } } := by
  rw [State.admitClaims, State.admitPass_none hleft,
    State.admitPass_enters (d := .right) hright (State.hasRoom_of_three h)]
  have hfull := Management.hasRoom_push h (.passResult .right q.chip result)
  rw [State.admitStatusNow_full hfull, State.admitReportNow_full hfull]
  rfl

/-- With no result of either side it goes to the STATUS NOW. -/
theorem State.admitClaims_statusNow (hpass : ∀ d, (s.ports.get d).pass.offer d = none) (hstatus : s.mgmt.statusClaim = true) :
    s.admitClaims = { s with mgmt := { s.mgmt with
      queue := s.mgmt.queue ++ [.status (s.statusReport .statusNow)], statusClaim := false } } := by
  rw [State.admitClaims_noPass hpass, State.admitStatusNow_enters hstatus (State.hasRoom_of_three h),
    State.admitReportNow_full (Management.hasRoom_push h (.status (s.statusReport .statusNow)))]
  rfl

/-- With the report-now claim alone it goes to the report-now STATUS. -/
theorem State.admitClaims_reportNow (hpass : ∀ d, (s.ports.get d).pass.offer d = none)
    (hstatus : s.mgmt.statusClaim = false) (hreport : s.mgmt.reportClaim = true) :
    s.admitClaims = { s with mgmt := { s.mgmt with
      queue := s.mgmt.queue ++ [.status (s.statusReport .reportNow)], reportClaim := false } } := by
  rw [State.admitClaims_noPass hpass, State.admitStatusNow_none hstatus,
    State.admitReportNow_enters hreport (State.hasRoom_of_three h)]
  rfl

end

/-- The END of a head that is no WARM RESET REPLY frees its slot for the claims. -/
theorem State.headSent_frees {s : State} {f : UpFrame} {rest : List UpFrame} (hq : s.mgmt.queue = f :: rest)
    (hw : f.warmReply = false) :
    s.headSent = ({ s with mgmt := { s.mgmt with queue := rest } } : State).admitClaims := by
  rw [State.headSent, hq]
  exact if_neg (Bool.eq_false_iff.1 hw)

/-- Settles O28: the END of the head by what the queue holds, and one free slot by the first claim that waits. -/
theorem freedSlotGoesToFirstClaim : Obligations.FreedSlotGoesToFirstClaim := by
  have hsent : ∀ {u : State}, u.inReset = false → exec .upstreamFrameSent u = .next u.headSent := fun hr => by
    rw [exec, execUpstreamFrameSent, State.running_normal hr]
  have hentry : ∀ {u : State}, u.inReset = false → exec .queueClaimEntry u = .next u.admitClaims := fun hr => by
    rw [exec, execQueueClaimEntry, State.running_normal hr]
  refine ⟨fun s hr hq => ?_, fun s hr hwaits => ?_, fun s f rest hr hq hw hwaits => ?_, fun s f rest hr hq hw => ?_,
    fun s hr h => ?_⟩
  · rw [hsent hr, State.headSent, hq]
  · rw [hentry hr, State.admitClaims_none hwaits]
  · rw [hsent hr, State.headSent_frees hq hw]
    exact congrArg _ (State.admitClaims_none (s := { s with mgmt := { s.mgmt with queue := rest } }) hwaits)
  · rw [hsent hr, State.headSent_frees hq hw]
    exact (hentry (u := { s with mgmt := { s.mgmt with queue := rest } }) hr).symm
  · rw [hentry hr]
    have hpass : (s.ports.left.pass.offer .left).isNone = true → (s.ports.right.pass.offer .right).isNone = true →
        ∀ d, (s.ports.get d).pass.offer d = none := fun hleft hright d => by
      cases d
      · exact Option.isNone_iff_eq_none.1 hleft
      · exact Option.isNone_iff_eq_none.1 hright
    refine ⟨fun q result hleft => ?_, fun q result hleft hright => ?_, fun hleft hright hstatus => ?_,
      fun hleft hright hstatus hreport => ?_⟩
    · rw [State.admitClaims_left h hleft]
    · rw [State.admitClaims_right h (Option.isNone_iff_eq_none.1 hleft) hright]
    · rw [State.admitClaims_statusNow h (hpass hleft hright) hstatus]
    · rw [State.admitClaims_reportNow h (hpass hleft hright) hstatus hreport]

/-! ### STATUS_NOW (R158, R162) -/

/-- An executed record stands in a taken frame (R158). -/
theorem State.frameFor_discarded {s : State} (h : s.executes = true) (r : ManageRecord) :
    (s.frameFor r).discarded = false := by
  cases hm : s.mgmt.manage with
  | none => rw [State.frameFor, hm]; rfl
  | some f =>
    simp only [State.executes, hm, Bool.and_eq_true, Bool.not_eq_true'] at h
    obtain ⟨-, hdiscarded, -⟩ := h
    rw [State.frameFor, hm]
    exact hdiscarded

/-- Its REPLY has a slot of its own beside the queued frames (R158, R161). -/
theorem State.opened_used {s : State} (h : s.executes = true) (r : ManageRecord) :
    (s.opened r).mgmt.used = s.mgmt.queue.length + 1 := by
  rw [Management.used, Management.reserved, State.opened_manage]
  simp only [State.frameFor_discarded h, State.opened_queue, Bool.false_eq_true, if_false]

/-- Settles O27: the claim of the STATUS NOW waits beside a full queue; alone beside a free slot it enters. -/
theorem statusNowEntersOrWaits : Obligations.StatusNowEntersOrWaits := by
  intro r s h hparams
  have hexec : exec (.statusNow r) s = .next (s.manageRecord 0x05#8 r statusNowCommand) := by
    rw [exec, execStatusNow, State.running_normal (State.inReset_of_executes h)]
  let claimed : State := { s.opened r with mgmt := { (s.opened r).mgmt with statusClaim := true } }
  have hrun : statusNowCommand r.params (s.opened r) = { state := claimed.admitClaims, code := .ok, data := [] } :=
    withoutParams_of_nil _ hparams _
  have hused : claimed.mgmt.used = s.mgmt.queue.length + 1 := State.opened_used h r
  rw [hexec]
  refine ⟨fun hfull => ?_, fun hfree hwaits => ?_⟩
  · have hroom : claimed.mgmt.hasRoom = false := decide_eq_false (by rw [Config.queueDepth, ← Management.used]; omega)
    refine congrArg _ (State.answered_of_effect h ?_)
    rw [hrun, State.admitClaims_full hroom]
    rfl
  · have hroom : claimed.mgmt.hasRoom = true := decide_eq_true (by rw [Config.queueDepth, ← Management.used]; omega)
    have hpass : ∀ d, (claimed.ports.get d).pass.offer d = none := State.offer_none_of (s := s) hwaits
    simp only [State.claimWaits, Bool.or_eq_false_iff] at hwaits
    obtain ⟨⟨-, hstatus⟩, hreport⟩ := hwaits
    let entered : State := { claimed with mgmt :=
      { claimed.mgmt.push (.status (s.statusReport .statusNow)) with statusClaim := s.mgmt.statusClaim } }
    have hentered : claimed.admitStatusNow = entered := by
      rw [State.admitStatusNow_enters rfl hroom]
      simp only [entered, hstatus]
      rfl
    refine congrArg _ (State.answered_of_effect h ?_)
    rw [hrun, State.admitClaims_noPass hpass, hentered, State.admitReportNow_none (s := entered) hreport]
    rfl

end Sys2Proof.Machine
end

section
/-! SUPPORT. The STATUS frames and the report request of an output frame event of the timer (R146, R155, R161 to R163). -/

namespace Sys2Proof.Machine

open Sys2Proof

/-! ### The claims after an event (R161, R162) -/

theorem State.periodicStatus_claims (s : State) :
    s.periodicStatus.mgmt.reportClaim = s.mgmt.reportClaim ∧ s.periodicStatus.mgmt.statusClaim = s.mgmt.statusClaim := by
  rcases s.periodicStatus_cases with h | ⟨-, h⟩ <;> rw [h] <;> exact ⟨rfl, rfl⟩

/-- Under the claim law a report-now claim is left after an event only where the queue is full, and the STATUS NOW claim as it
was. -/
theorem State.statusAtEvent_claims {s : State} (h : s.claimLaw = true) (requested : Bool) :
    (s.statusAtEvent requested).mgmt.reportClaim
        = ((s.mgmt.reportClaim || requested) && decide (4 ≤ s.mgmt.queue.length + s.mgmt.reserved))
      ∧ (s.statusAtEvent requested).mgmt.statusClaim = s.mgmt.statusClaim := by
  let claimed : State := { s with mgmt := { s.mgmt with reportClaim := s.mgmt.reportClaim || requested } }
  obtain ⟨hreport, hstatus⟩ := claimed.admitClaims.periodicStatus_claims
  have hadmitted := State.admitClaims_requested h requested
  rw [State.statusAtEvent, hreport, hstatus, hadmitted]
  cases hroom : s.mgmt.hasRoom with
  | false =>
    have hfull : 4 ≤ s.mgmt.queue.length + s.mgmt.reserved := not_lt.1 (of_decide_eq_false hroom)
    rw [Bool.and_false, if_neg Bool.false_ne_true, decide_eq_true hfull, Bool.and_true]
    exact ⟨rfl, rfl⟩
  | true =>
    have hfree : ¬ 4 ≤ s.mgmt.queue.length + s.mgmt.reserved := not_le.2 (s.hasRoom_iff.1 hroom)
    have hwaits : s.claimWaits = false := s.claimLaw_iff.1 h (s.hasRoom_iff.1 hroom)
    simp only [State.claimWaits, Bool.or_eq_false_iff] at hwaits
    obtain ⟨-, hnone⟩ := hwaits
    rw [Bool.and_true, decide_eq_false hfree, Bool.and_false]
    cases requested with
    | false => exact ⟨(Bool.or_false _).trans hnone, rfl⟩
    | true => exact ⟨rfl, rfl⟩

/-! ### The work of an event of the timer -/

theorem expiryCause_eq_flywheel (b : BankCopy) : (expiryCause b == .flywheel) = syncExternal b := by
  rw [expiryCause]
  cases syncExternal b <;> rfl

/-- An expiry: the work of the blocks, SYNC_MISSING under EXTERNAL sync, and the STATUS frames (R138, R142, R162). -/
theorem State.timerExpiry_work (s : State) :
    ∃ (time : Timebase) (held : Option Nat), time.frameCounter = s.time.frameCounter + 1#16
      ∧ s.timerExpiry
        = ((s.eventWork.retimed time held).raise (Flag.syncMissing.maskIf (syncExternal s.bank.active))).statusAtEvent
            s.completeComposition.mgmt.reportRequest := by
  let held := s.sup.lowreqHeld.map (· + s.time.ticksToExpiry)
  obtain ⟨time, hnumber, hevent⟩ := s.outputFrameEvent_retimed (time := s.time.elapse s.time.ticksToExpiry) rfl rfl held
    (expiryCause s.bank.active)
  rw [expiryCause_eq_flywheel] at hevent
  refine ⟨time, held, hnumber, ?_⟩
  rw [State.timerExpiry, State.elapse_eq_retimed]
  exact hevent

/-- The report request after an expiry is that of its own work, and of SYNC_MISSING under EXTERNAL sync where it is enabled (R142,
R163). -/
theorem State.timerExpiry_reportRequest (s : State) :
    s.timerExpiry.mgmt.reportRequest
      = (s.eventWork.mgmt.reportRequest
        || (syncExternal s.bank.active && (reportEnable s.eventWork.bank.active).getLsbD Flag.syncMissing.bit)) := by
  obtain ⟨time, held, -, hevent⟩ := s.timerExpiry_work
  let mask := Flag.syncMissing.maskIf (syncExternal s.bank.active)
  obtain ⟨-, -, -, -, -, -, -, -, -, -, -, -, -, -, hrequest, -⟩ :=
    (((s.eventWork.retimed time held).raise mask).statusAtEvent_admits s.completeComposition.mgmt.reportRequest).frame
  rw [hevent, hrequest, State.raise_reportRequest, Flag.maskIf_enabled]
  rfl

section
variable {s : State} (hf : s.composer.inFlight = none)
include hf

/-- Without a composition in flight the work of an event is that of the commit and the decisions. -/
theorem State.eventWork_none : s.eventWork = (s.beginEvent .acceptedEdge).commitAtEvent.frameDecisions := by
  rw [State.eventWork, State.completeComposition_none hf]

/-- The report request that stood leaves nothing in the work of the event, which begins by clearing it (R162). -/
theorem State.eventWork_request (request : Bool) :
    ({ s with mgmt := { s.mgmt with reportRequest := request } } : State).eventWork = s.eventWork := by
  rw [State.eventWork_none hf]
  exact State.eventWork_none (s := { s with mgmt := { s.mgmt with reportRequest := request } }) hf

/-- Without a pending commit no flag is raised in the work of an event, and ACTIVE stays. -/
theorem State.eventWork_noCommit (hc : s.bank.commitPending = false) :
    s.eventWork.mgmt.reportRequest = false ∧ s.eventWork.bank.active = s.bank.active := by
  have hcommit := State.commitAtEvent_of_none hc .acceptedEdge
  rw [State.completeComposition_none hf] at hcommit
  rw [State.eventWork_none hf, hcommit]
  exact ⟨rfl, rfl⟩

/-- A rejected commit makes a report request by COMMIT_REJECTED where it is enabled, and ACTIVE stays (R155, R163). -/
theorem State.eventWork_rejected (hc : s.bank.commitPending = true) (hv : bankFault s.bank.staged ≠ none) :
    s.eventWork.mgmt.reportRequest = (reportEnable s.bank.active).getLsbD Flag.commitRejected.bit
      ∧ s.eventWork.bank.active = s.bank.active := by
  obtain ⟨⟨id, off⟩, hfault⟩ := Option.ne_none_iff_exists'.1 hv
  have hcommit := State.commitAtEvent_rejected (s := s.beginEvent .acceptedEdge) hc hfault
  have hactive : s.bank.decide.active = s.bank.active := by rw [TableBank.decide_of_fault hfault]
  have hraised := Flag.maskIf_enabled .commitRejected true (reportEnable s.bank.decide.active)
  rw [Flag.maskIf_true, Bool.true_and, hactive] at hraised
  rw [State.eventWork_none hf, hcommit]
  refine ⟨?_, hactive⟩
  rw [← hraised, ← hactive]
  exact Bool.false_or _

/-- The queue and the claims after an expiry (R161, R162). -/
theorem State.timerExpiry_queue (h : s.claimLaw = true) :
    let t := s.timerExpiry
    let used := s.mgmt.queue.length + s.mgmt.reserved
    let now := s.mgmt.reportRequest && decide (used < 4)
    let due := decide (statusPeriod t.bank.active ≠ 0
      ∧ (s.time.frameCounter + 1#16).toNat % statusPeriod t.bank.active = 0)
    let periodic := due && decide (used + (if now = true then 1 else 0) < 4)
    t.mgmt.queue = s.mgmt.queue ++ (if now = true then [.status (t.statusReport .reportNow)] else [])
        ++ (if periodic = true then [.status (t.statusReport .periodic)] else [])
      ∧ t.mgmt.reportClaim = ((s.mgmt.reportClaim || s.mgmt.reportRequest) && decide (4 ≤ used))
      ∧ t.mgmt.statusClaim = s.mgmt.statusClaim ∧ t.mgmt.manage = s.mgmt.manage := by
  obtain ⟨time, held, hnumber, hevent⟩ := s.timerExpiry_work
  rw [State.completeComposition_none hf] at hevent
  obtain ⟨hqueue, hmanage, hclaims⟩ := State.eventWork_claims hf
  obtain ⟨-, -, -, -, -, -, -, -, -, -, -, hreport, hstatus, -⟩ := (s.beginEvent .acceptedEdge).commitAtEvent_frame
  let p : State := (s.eventWork.retimed time held).raise (Flag.syncMissing.maskIf (syncExternal s.bank.active))
  have hp : p.claimLaw = true := hclaims h
  have hwork := State.eventWork_none hf
  have hpqueue : p.mgmt.queue = s.mgmt.queue := hqueue
  have hpreserved : p.mgmt.reserved = s.mgmt.reserved := Management.reserved_of_manage hmanage
  have hpnumber : p.time.frameCounter = s.time.frameCounter + 1#16 := hnumber
  have hpreport : p.mgmt.reportClaim = s.mgmt.reportClaim :=
    (congrArg (fun u : State => u.mgmt.reportClaim) hwork).trans hreport
  have hpstatus : p.mgmt.statusClaim = s.mgmt.statusClaim :=
    (congrArg (fun u : State => u.mgmt.statusClaim) hwork).trans hstatus
  obtain ⟨-, -, -, -, -, -, -, -, -, -, -, hbank, -, -, -, htmanage, -⟩ :=
    (p.statusAtEvent_admits s.mgmt.reportRequest).frame
  have hentered := State.statusAtEvent_queue hp s.mgmt.reportRequest
  obtain ⟨hreported, hstatused⟩ := State.statusAtEvent_claims hp s.mgmt.reportRequest
  rw [hpqueue, hpreserved, hpnumber] at hentered
  rw [hpqueue, hpreserved, hpreport] at hreported
  intro t
  have ht : t = p.statusAtEvent s.mgmt.reportRequest := hevent
  rw [ht, State.statusAtEvent_statusReport hp, State.statusAtEvent_statusReport hp, hbank]
  exact ⟨hentered, hreported, hstatused.trans hpstatus, htmanage.trans hmanage⟩

end

/-- Settles O33: the queue and the claims after the expiry; then the report request, by the commit. -/
theorem eventFormsStatusFrames : Obligations.EventFormsStatusFrames := by
  intro s hr hf hclaim
  have hexec : ∀ {u : State}, u.inReset = false → exec .frameTimerExpiry u = .next u.timerExpiry := fun hu => by
    rw [exec, execFrameTimerExpiry, State.running_normal hu]
  refine ⟨s.timerExpiry, hexec hr, State.timerExpiry_queue hf hclaim, ⟨fun hc => ?_, fun hc hv => ?_⟩, fun u hu => ?_⟩
  · obtain ⟨hrequest, hactive⟩ := State.eventWork_noCommit hf hc
    rw [State.timerExpiry_reportRequest, hrequest, hactive, Bool.false_or, syncExternal_eq_decide]
    rfl
  · obtain ⟨hrequest, hactive⟩ := State.eventWork_rejected hf hc hv
    rw [State.timerExpiry_reportRequest, hrequest, hactive, syncExternal_eq_decide]
    rfl
  · let cleared : State := { s with mgmt := { s.mgmt with reportRequest := false } }
    have hcleared : u = cleared.timerExpiry := by
      have hnext := (hexec (u := cleared) hr).symm.trans hu
      cases hnext
      rfl
    have hwork : cleared.eventWork = s.eventWork := State.eventWork_request hf false
    rw [hcleared, State.timerExpiry_reportRequest, State.timerExpiry_reportRequest, hwork]

end Sys2Proof.Machine
end

section
/-! SUPPORT. A step on a queue that is not empty: its front command is what runs. -/

namespace Sys2Proof.Machine

open Sys2Proof

/-- The queue decides which branch of a step is taken: with a command at its front, neither ticks nor due events act. -/
theorem step_of_pending_cons {c : Instr} {rest : List Instr} {s : State} (h : s.pending = c :: rest) :
    step s = exec c (s.withQueue rest) := by
  rw [step, h]

/-- Settles O1: `withQueue` replaces the queue alone. -/
theorem stepRunsFrontCommand : Obligations.StepRunsFrontCommand := by
  intro c rest s hpending
  calc step s = exec c (s.withQueue rest) := step_of_pending_cons hpending
    _ = exec c { s with pending := rest } := by rw [State.withQueue]

end Sys2Proof.Machine
end
